-- ==== Sys2Proof/Word.lean ====
section
/-! DEFINITION. The word types of the device (R7): 32-bit registers, addresses and CRC values,
8-bit memory and stream bytes, and byte sequences. -/

namespace Sys2Proof

/-- A register, address, length or CRC value (R7). -/
abbrev Word := BitVec 32

/-- A byte of buffer memory or of the output stream (R7). -/
abbrev Byte := BitVec 8

/-- A byte sequence, index 0 first (R11). -/
abbrev Bytes := List Byte

end Sys2Proof
end

