-- ==== Sys2Proof/Syntax.lean ====
section
/-! DEFINITION. The commands (R62): one constructor per row of spec/opcode_table.json. -/

namespace Sys2Proof

/-- A command. Operands other than the filter field are registers latched at acceptance (R68), so a
constructor carries only what the command word itself holds: the 3-bit FILT field, for the three
commands that have one (R61, R63). -/
inductive Instr
  /-- OP 0x01 (R81). -/
  | tblinit
  /-- OP 0x02 (R82). -/
  | crc
  /-- OP 0x03 (R93). -/
  | sopen
  /-- OP 0x04 (R94). -/
  | sclose
  /-- OP 0x05 (R95). -/
  | wsig
  /-- OP 0x06 (R96). -/
  | wchunk
  /-- OP 0x07 (R103), FILT field `ft`. -/
  | filt (ft : BitVec 3)
  /-- OP 0x08 (R109), FILT field `ft`. -/
  | fcomp (ft : BitVec 3)
  /-- OP 0x09 (R113), FILT field `ft`. -/
  | encpng (ft : BitVec 3)
  /-- OP 0x0A (R126). -/
  | rgb
deriving DecidableEq, Repr

end Sys2Proof
end

