-- ==== Sys2Proof/WellFormed.lean ====
section
/-! DEFINITION. Which commands are legal (R63): the FILT field, where a command has one, is 0. An
ill-formed command still decodes and runs: its meaning is the device error ILLEGAL_FILTER. -/

namespace Sys2Proof

/-- The FILT field of a command; 0 for a command that has none (R61). -/
def Instr.filterField : Instr → BitVec 3
  | .tblinit => 0
  | .crc => 0
  | .sopen => 0
  | .sclose => 0
  | .wsig => 0
  | .wchunk => 0
  | .filt ft => ft
  | .fcomp ft => ft
  | .encpng ft => ft
  | .rgb => 0

/-- R63: value 0, "None", is the only legal filter type. -/
def Instr.wellFormed (i : Instr) : Bool :=
  i.filterField == 0

end Sys2Proof
end

