-- ==== Sys2Proof/Decode.lean ====
section
/-! DEFINITION. Decoding a command word (R61 to R67) and, after it, encoding a command. -/

namespace Sys2Proof

/-- Why a word is no command (R65 tests 1 to 3). Each of them completes with ILLEGAL_CMD (R66). -/
inductive Rejection
  /-- Test 1: a reserved bit 31:11 is set (R64). -/
  | reservedBits
  /-- Test 2: OP is 0x00 or 0x0B to 0xFF (R62). -/
  | noSuchOperation
  /-- Test 3: the FILT field is nonzero for an operation that has none (R63). -/
  | filterOnPlainOperation
deriving DecidableEq, Repr

/-- OP, bits 7:0 (R61). -/
def opField (w : Word) : Byte := w.extractLsb' 0 8

/-- FILT, bits 10:8 (R61). -/
def filtField (w : Word) : BitVec 3 := w.extractLsb' 8 3

/-- RSV, bits 31:11 (R61). -/
def rsvField (w : Word) : BitVec 21 := w.extractLsb' 11 21

/-- An operation that takes no filter type: any other FILT field than 0 is illegal (R65 test 3). -/
def plainOperation (i : Instr) (ft : BitVec 3) : Except Rejection Instr :=
  if ft = 0 then .ok i else .error .filterOnPlainOperation

/-- The operation map of R62. -/
def decodeOperation (op : Byte) (ft : BitVec 3) : Except Rejection Instr :=
  if op = 0x01 then plainOperation .tblinit ft
  else if op = 0x02 then plainOperation .crc ft
  else if op = 0x03 then plainOperation .sopen ft
  else if op = 0x04 then plainOperation .sclose ft
  else if op = 0x05 then plainOperation .wsig ft
  else if op = 0x06 then plainOperation .wchunk ft
  else if op = 0x07 then .ok (.filt ft)
  else if op = 0x08 then .ok (.fcomp ft)
  else if op = 0x09 then .ok (.encpng ft)
  else if op = 0x0A then plainOperation .rgb ft
  else .error .noSuchOperation

/-- The decoder of R65, total on 32-bit words. Test 4 (a filter type other than 0 where there is a
FILT field) is the first check of the command's meaning, since the error it raises names the field
(notes/assumptions/22.md). -/
def decode (w : Word) : Except Rejection Instr :=
  if rsvField w = 0 then decodeOperation (opField w) (filtField w) else .error .reservedBits

/-- The word whose low `nbits` bits are those of `w`, and whose other bits are 0. -/
def tableWord (nbits w : Nat) : Word := BitVec.ofNat 32 (w % 2 ^ nbits)

/-- What the decoder reads from an instruction of the opcode table. -/
def decodeTableWord (nbits w : Nat) : Option Instr :=
  match decode (tableWord nbits w) with
  | .ok i => some i
  | .error _ => none

/-- The OP value of a command (R62). -/
def Instr.operation : Instr → Byte
  | .tblinit => 0x01
  | .crc => 0x02
  | .sopen => 0x03
  | .sclose => 0x04
  | .wsig => 0x05
  | .wchunk => 0x06
  | .filt _ => 0x07
  | .fcomp _ => 0x08
  | .encpng _ => 0x09
  | .rgb => 0x0A

/-- A command word from its fields, RSV = 0 (R61). -/
def commandWord (ft : BitVec 3) (op : Byte) : Word := (0 : BitVec 21) ++ ft ++ op

/-- The command word of a command. -/
def encode (i : Instr) : Word := commandWord i.filterField i.operation

/-- One row of spec/opcode_table.json: a word is the row's when its bits under `mask` are `value`. -/
structure TableRow where
  mask : Word
  value : Word
deriving DecidableEq, Repr

/-- Whether a word is one of the row's. -/
def TableRow.holds (r : TableRow) (w : Word) : Bool := w &&& r.mask == r.value

/-- The row of a command (its "mask" and "match" in spec/opcode_table.json). -/
def Instr.tableRow : Instr → TableRow
  | .tblinit => ⟨0xFFFFFFFF, 0x00000001⟩
  | .crc => ⟨0xFFFFFFFF, 0x00000002⟩
  | .sopen => ⟨0xFFFFFFFF, 0x00000003⟩
  | .sclose => ⟨0xFFFFFFFF, 0x00000004⟩
  | .wsig => ⟨0xFFFFFFFF, 0x00000005⟩
  | .wchunk => ⟨0xFFFFFFFF, 0x00000006⟩
  | .filt _ => ⟨0xFFFFF8FF, 0x00000007⟩
  | .fcomp _ => ⟨0xFFFFF8FF, 0x00000008⟩
  | .encpng _ => ⟨0xFFFFF8FF, 0x00000009⟩
  | .rgb => ⟨0xFFFFFFFF, 0x0000000A⟩

/-- The ten rows of the table. -/
def opcodeTable : List TableRow :=
  [ .tblinit, .crc, .sopen, .sclose, .wsig, .wchunk, .filt 0, .fcomp 0, .encpng 0, .rgb ].map
    Instr.tableRow

end Sys2Proof
end

