-- ==== Sys2Proof/Config.lean ====
section
/-! DEFINITION. The implementation parameters of R5 to R9, and the free values: every open value of
the spec is an uninterpreted constant here, or a plain-data choice that State carries. -/

namespace Sys2Proof

/-- PIXEL_BYTE_ORDER (R6): how a 32-bit pixel word lies in buffer memory. -/
inductive ByteOrder
  | le
  | be
deriving DecidableEq, Repr

/-- Which `Deflate` (R8) a machine has. `parameter` is the hardware's: an unknown function with
exactly the properties of R107. `reference` is DEFLATE_REF (R108), the spec's own admissible choice
for vectors; a statement about every state speaks of both. -/
inductive Compressor
  | parameter
  | reference
deriving DecidableEq, Repr

/-- The Stream sink's answer to an open request (R9, R85). A refused open may or may not have
truncated the stream. -/
inductive OpenOutcome
  | success
  | failure (truncated : Bool)
deriving DecidableEq, Repr, Inhabited

/-- The Stream sink's answer to an append request (R9, R88). A failure lands the first `landed`
bytes of the request, and all of them where `landed` exceeds their number. -/
inductive WriteOutcome
  | success
  | failure (landed : Nat)
deriving DecidableEq, Repr, Inhabited

/-- The parameters a machine is built with. No step changes them (notes/assumptions/1.md). -/
structure Config where
  /-- MEM_SIZE (R5). -/
  memSize : Nat
  /-- PIXEL_BYTE_ORDER (R6). -/
  pixelByteOrder : ByteOrder
  /-- `Deflate` (R8). -/
  compressor : Compressor
deriving DecidableEq, Repr

/-- MEM_SIZE - 1 of this hardware (R5: OPEN, 1 to 2^32). Free value: no body (notes/assumptions/2.md). -/
opaque Config.memSizeParam : BitVec 32

/-- The compressor of this hardware before it is held to R107 property 2 (`Machine.deflate`).
Free value: no body (notes/assumptions/4.md). -/
opaque Config.deflateParam : Bytes → Option Bytes

/-- The sink's answer to the open that draws value number `n` (R9). Free value (notes/assumptions/7.md). -/
opaque Config.openAnswer : Nat → OpenOutcome

/-- The sink's answer to the append that draws value number `n` (R9). Free value (notes/assumptions/7.md). -/
opaque Config.writeAnswer : Nat → WriteOutcome

/-- What byte `i` of a scrambled destination region holds, at draw number `n` (R106, R110).
Free value (notes/assumptions/13.md). -/
opaque Config.scrambleByte : Nat → Nat → Byte

/-- What an unspecified register element `i` holds after the RESET that draws value number `n`
(R148). Free value (notes/assumptions/11.md). -/
opaque Config.resetWord : Nat → Nat → Word

/-- What the byte of buffer memory at an address holds from power-on until it is written (R41, R43).
Free value (notes/assumptions/12.md). -/
opaque Config.powerOnByte : Nat → Byte

/-- This hardware's parameters: MEM_SIZE open within its bounds (R5), LE pixel words (R6), the
compressor open (R8). -/
def Config.hardware : Config :=
  { memSize := Config.memSizeParam.toNat + 1
    pixelByteOrder := .le
    compressor := .parameter }

end Sys2Proof
end

