-- ==== Sys2Proof/Machine/State.lean ====
section
/-! DEFINITION. The device's state (10_state.md), the reasons a step can stop, and the state at
power-on. -/

namespace Sys2Proof.Machine

/-- The sequencer phase (R33). The values 9 to 15 are never held and have no constructor. -/
inductive Phase
  | idle
  | exec
  | opening
  | sig
  | ihdr
  | compress
  | idat
  | iend
  | closing
deriving DecidableEq, Repr

/-- The device errors (R128). They are architected results: a step that raises one answers a next
state. -/
inductive DevError
  | illegalCmd
  | illegalFilter
  | badDim
  | length
  | misaligned
  | memory
  | overlap
  | streamState
  | ioOpen
  | ioWrite
  | compression
deriving DecidableEq, Repr

/-- The operand registers x[3] to x[10] (R19 to R26). -/
structure OperandRegs where
  seed : Word
  srcAddr : Word
  srcLen : Word
  dstAddr : Word
  dstCap : Word
  width : Word
  height : Word
  chunkType : Word
deriving DecidableEq, Repr

/-- The latches of R31: the command word and the operand registers as they were at acceptance. -/
structure Latches where
  cmd : Word
  ops : OperandRegs
deriving DecidableEq, Repr

/-- The width of a Host access to the register window (R47). -/
inductive AccessWidth
  | byte
  | half
  | word
deriving DecidableEq, Repr

/-- A Host bus transaction (R70). A register offset is 8 bits: the window is 0x00 to 0xFC (R15). -/
inductive Txn
  | rd (width : AccessWidth) (off : BitVec 8)
  | wr (width : AccessWidth) (off : BitVec 8) (v : Word)
  | mrd (a : Word)
  | mwr (a : Word) (b : Byte)
  | reset
deriving DecidableEq, Repr

/-- Whose turn comes next (R4, R144): a Host transaction, or the Engine. -/
inductive Turn
  | host (t : Txn)
  | engine
deriving DecidableEq, Repr

/-- Buffer memory: the bytes written since power-on, by address, in one canonical form
(`Memory.wf`). An address that is not listed is unwritten (R43). -/
abbrev Memory := List Host.Cell

/-- The canonical form: addresses strictly rising. A listed byte is never what an unlisted address
reads as, since an unlisted address reads as no byte at all. -/
abbrev Memory.wf (m : Memory) : Prop := m.Pairwise (fun c d => c.1 < d.1)

/-- The machine. -/
structure State where
  /-- The implementation parameters (R5, R6, R8). -/
  cfg : Config
  /-- SEED, SRC_ADDR, SRC_LEN, DST_ADDR, DST_CAP, WIDTH, HEIGHT, TYPE (R19 to R26). -/
  ops : OperandRegs
  /-- The latches L.* (R31). -/
  lat : Latches
  /-- STATUS.BUSY (R17). -/
  busy : Bool
  /-- STATUS.DONE (R17). -/
  done : Bool
  /-- STATUS.ERR (R17). -/
  err : Bool
  /-- STATUS.OVR (R17). -/
  ovr : Bool
  /-- STATUS.ERRCODE (R17, R128); `none` is code 0. -/
  errCode : Option DevError
  /-- STATUS.TBL_VALID (R17, R32). -/
  tblValid : Bool
  /-- STATUS.STRM_OPEN (R17, R34). -/
  strmOpen : Bool
  /-- STATUS.PHASE (R17, R33). -/
  phase : Phase
  /-- ERRINFO (R18). -/
  errInfo : Word
  /-- RESULT (R27). -/
  result : Word
  /-- OUT_COUNT (R28). -/
  outCount : Word
  /-- The CRC table TBL (R32). -/
  tbl : Vector Word 256
  /-- ZLEN (R36). Outside a running ENCPNG it keeps its last value (notes/assumptions/27.md). -/
  zlen : Word
  /-- Buffer memory MEM, with its written marks (R35, R39, R43). -/
  mem : Memory
  /-- The output stream OUT (R34). -/
  out : Bytes
  /-- The model's own: the sink's answers to the next opens (R9). -/
  opens : List OpenOutcome
  /-- The model's own: the sink's answers to the next appends (R9). -/
  writes : List WriteOutcome
  /-- The model's own: the turns still to come (R4, R70). -/
  script : List Turn
  /-- The model's own: what the last RD or MRD returned to the Host (R70). -/
  rdata : Word
  /-- The model's own: how many free values have been drawn. -/
  draws : Nat
deriving DecidableEq, Repr

/-- Where the model stops because the spec gives the situation no device result. -/
inductive Fault
  /-- HOST_RACE (R55, R146): a Host access to a region of the running command. Raised by the Host's
  MRD and MWR. Safe. -/
  | hostRace
  /-- UNINIT_READ (R43, R146): an Engine read that covers a byte never written since power-on. Raised
  by the Engine's reads of buffer memory. Safe. -/
  | uninitRead
  /-- An Engine access outside buffer memory, where no byte exists (R43). The range checks keep every
  run away from it (R12). Raised by the Engine's reads and writes of buffer memory. Safe. -/
  | unmappedAccess
  /-- An ENCPNG step at PHASE 0, which no run reaches (R33). Raised by ENCPNG. Safe. -/
  | noPhaseStep
deriving DecidableEq, Repr

/-- Where the model gives an action no meaning. -/
inductive Refusal
  /-- An instruction with no meaning yet. Raised by an arm of exec only; no arm does. Safe. -/
  | notModelled (mnemonic : String)
  /-- REFUSED_ACCESS (R47, R70, R146): a Host access to the window that is not one whole aligned word,
  or to buffer memory at an address that does not exist. Raised by the Host's transactions. Safe. -/
  | refusedAccess
deriving DecidableEq, Repr

/-- Every operand register 0 (R40). -/
def OperandRegs.zero : OperandRegs :=
  { seed := 0, srcAddr := 0, srcLen := 0, dstAddr := 0, dstCap := 0, width := 0, height := 0
    chunkType := 0 }

/-- The machine at power-on (R40, R41). The latches, TBL and ZLEN are unspecified there: DESIGN CHOICE
zero, unsafe (notes/assumptions/8.md, 9.md, 10.md). -/
def State.reset : State :=
  { cfg := Config.hardware
    ops := OperandRegs.zero
    lat := { cmd := 0, ops := OperandRegs.zero }
    busy := false
    done := false
    err := false
    ovr := false
    errCode := none
    tblValid := false
    strmOpen := false
    phase := .idle
    errInfo := 0
    result := 0
    outCount := 0
    tbl := Vector.replicate 256 0
    zlen := 0
    mem := []
    out := []
    opens := []
    writes := []
    script := []
    rdata := 0
    draws := 0 }

end Sys2Proof.Machine
end

