-- ==== Sys2Proof/Machine/Flags.lean ====
section
/-! DEFINITION. The STATUS word and what is shown in it: phase and error codes (R17, R33, R128), the
document's error kinds (R143), and the two ways a command ends (R130, R131). -/

namespace Sys2Proof.Machine

/-- The value of STATUS.PHASE for a phase (R33). -/
def Phase.code : Phase → BitVec 4
  | .idle => 0
  | .exec => 1
  | .opening => 2
  | .sig => 3
  | .ihdr => 4
  | .compress => 5
  | .idat => 6
  | .iend => 7
  | .closing => 8

/-- The value of STATUS.ERRCODE for a device error (R128). -/
def DevError.code : DevError → BitVec 4
  | .illegalCmd => 0x1
  | .illegalFilter => 0x2
  | .badDim => 0x3
  | .length => 0x4
  | .misaligned => 0x5
  | .memory => 0x6
  | .overlap => 0x7
  | .streamState => 0x8
  | .ioOpen => 0x9
  | .ioWrite => 0xA
  | .compression => 0xB

/-- STATUS.ERRCODE: 0 when there is no error (R17, R128). -/
def errCodeField : Option DevError → BitVec 4
  | none => 0
  | some e => e.code

/-- The STATUS register (R17), most significant field first; bits 31:16 and 11:10 read 0. -/
def statusWord (s : State) : Word :=
  (0 : BitVec 16) ++ s.phase.code ++ (0 : BitVec 2) ++ BitVec.ofBool s.strmOpen
    ++ BitVec.ofBool s.tblValid ++ errCodeField s.errCode ++ BitVec.ofBool s.ovr
    ++ BitVec.ofBool s.err ++ BitVec.ofBool s.done ++ BitVec.ofBool s.busy

/-- The source document's error kinds (R143). -/
inductive DocumentKind
  | ioError
  | compressionError
  | memoryError
deriving DecidableEq, Repr

/-- The document kind a Host reports for a device error; `none` for the device's own errors (R143). -/
def DevError.documentKind : DevError → Option DocumentKind
  | .illegalCmd => none
  | .illegalFilter => none
  | .badDim => some .memoryError
  | .length => none
  | .misaligned => none
  | .memory => some .memoryError
  | .overlap => none
  | .streamState => none
  | .ioOpen => some .ioError
  | .ioWrite => some .ioError
  | .compression => some .compressionError

/-- `raise E(info)`, error completion (R130): the one way a command ends in an error. PHASE, RESULT,
the latches and the table stay, and so do the effects made before. There is no vector and no saved
program counter; the next acceptance clears the record (R134, `accept`). ZLEN stays too, which the spec
leaves unspecified once ENCPNG is over (R36): DESIGN CHOICE, unsafe (notes/assumptions/27.md). -/
def raise (e : DevError) (info : Word) (s : State) : State :=
  { s with err := true, errCode := some e, errInfo := info, busy := false, done := true }

/-- `Complete()`, successful completion (R131). ZLEN stays, which the spec leaves unspecified once ENCPNG
is over (R36): DESIGN CHOICE, unsafe (notes/assumptions/27.md). -/
def complete (s : State) : State :=
  { s with busy := false, done := true, phase := .idle }

/-- Successful completion of a command that has a result (R27). -/
def completeWith (r : Word) (s : State) : State :=
  complete { s with result := r }

end Sys2Proof.Machine
end

