-- ==== Sys2Proof/Machine/Ops.lean ====
section
/-! DEFINITION. The shared operations: byte orders (R11), buffer memory (R42 to R45), acceptance of a
command word (R73, R74), the pre-checks of a command (R132), the output stream (R84 to R88). -/

namespace Sys2Proof.Machine

/-! Byte orders (R11). -/

/-- `BE32(v)`: most significant byte first. -/
def be32 (v : Word) : Bytes :=
  [v.extractLsb' 24 8, v.extractLsb' 16 8, v.extractLsb' 8 8, v.extractLsb' 0 8]

/-- `LE32(b0,b1,b2,b3)`: the first byte is the least significant. -/
def le32 (b0 b1 b2 b3 : Byte) : Word := b3 ++ b2 ++ b1 ++ b0

/-- `BE32val(b0,b1,b2,b3)`: the first byte is the most significant. -/
def be32val (b0 b1 b2 b3 : Byte) : Word := b0 ++ b1 ++ b2 ++ b3

/-- `LE16(v)` (R108). -/
def le16 (v : BitVec 16) : Bytes := [v.extractLsb' 0 8, v.extractLsb' 8 8]

/-! Buffer memory. -/

/-- The byte at an address, if it has been written (R43). -/
def Memory.read : Memory → Nat → Option Byte
  | [], _ => none
  | (k, v) :: m, a => if k = a then some v else Memory.read m a

/-- Write one byte and mark it written, keeping the canonical form. -/
def Memory.write : Memory → Nat → Byte → Memory
  | [], a, b => [(a, b)]
  | (k, v) :: m, a, b =>
    if a < k then (a, b) :: (k, v) :: m
    else if a = k then (a, b) :: m
    else (k, v) :: Memory.write m a b

/-- The `n` bytes from an address on, in address order; none where one of them is unwritten (R12, R43). -/
def Memory.readBytes (m : Memory) (a : Nat) : Nat → Option Bytes
  | 0 => some []
  | n + 1 =>
    match m.read a, Memory.readBytes m (a + 1) n with
    | some b, some bs => some (b :: bs)
    | _, _ => none

/-- Write a byte sequence from an address on (R12). -/
def Memory.writeBytes (m : Memory) (a : Nat) : Bytes → Memory
  | [] => m
  | b :: bs => Memory.writeBytes (m.write a b) (a + 1) bs

/-- R44: the region of `n` bytes at `a` lies in a buffer memory of `size` bytes. The sum does not wrap
around, and a region of no bytes is in range anywhere. -/
def inRange (size : Nat) (a : Word) (n : Nat) : Bool :=
  n == 0 || decide (a.toNat + n ≤ size)

/-- R45: the regions (a, n) and (b, m) share a byte. -/
def overlaps (a : Word) (n : Nat) (b : Word) (m : Nat) : Bool :=
  decide (0 < n) && decide (0 < m) && decide (a.toNat < b.toNat + m) && decide (b.toNat < a.toNat + n)

/-- `MemRead(a, n)` of the Engine (R12, R43): a region outside buffer memory has no bytes, and a byte
never written holds no value a run may use. -/
def memRead (a : Word) (n : Nat) (s : State) : Except Fault Bytes :=
  if inRange s.cfg.memSize a n then
    match s.mem.readBytes a.toNat n with
    | some bs => .ok bs
    | none => .error .uninitRead
  else .error .unmappedAccess

/-- `MemWrite(a, n, v)` of the Engine (R12), n the length of v. -/
def memWrite (a : Word) (bs : Bytes) (s : State) : Except Fault State :=
  if inRange s.cfg.memSize a bs.length then
    .ok { s with mem := s.mem.writeBytes a.toNat bs }
  else .error .unmappedAccess

/-- `DstScramble()` (R106, R110): every byte of the region (a, n) holds a free value and counts as
written (notes/assumptions/13.md). -/
def memScramble (a : Word) (n : Nat) (s : State) : Except Fault State :=
  memWrite a ((List.range n).map (Config.scrambleByte s.draws)) { s with draws := s.draws + 1 }

/-! Acceptance of a command word. -/

/-- Acceptance (R73): the word and the operand registers go to the latches, the record of the last
command is cleared, and the Engine stands before its EXEC step. -/
def accept (v : Word) (s : State) : State :=
  { s with
    lat := { cmd := v, ops := s.ops }
    busy := true
    done := false
    err := false
    ovr := false
    errCode := none
    errInfo := 0
    phase := .exec }

/-- A Host write to CMD: accepted while BUSY = 0 (R73), dropped while BUSY = 1 (R74). -/
def writeCommand (v : Word) (s : State) : State :=
  if s.busy then { s with ovr := true } else accept v s

/-- An illegal command word completes with ILLEGAL_CMD and no other effect (R66). -/
def illegalCommand (s : State) : State := raise .illegalCmd s.lat.cmd s

/-! The pre-checks of a command (R132). -/

/-- One pre-check: whether it fails, and the error it then raises. -/
structure Guard where
  fails : Bool
  error : DevError
  info : Word
deriving DecidableEq, Repr

/-- The first check that fails, in the order of the command's rule (R132). -/
def firstFailing (gs : List Guard) : Option Guard := gs.find? Guard.fails

/-- What an Engine step answers: the next state, or the model fault that stopped it. -/
def answer : Except Fault State → Host.Outcome State Fault Refusal
  | .ok s => .next s
  | .error f => .fault f

/-- A step that begins with pre-checks: the first failing one is raised with no other effect (R133),
and otherwise the body runs. -/
def guarded (gs : List Guard) (s : State) (body : Except Fault State) :
    Host.Outcome State Fault Refusal :=
  match firstFailing gs with
  | some g => .next (raise g.error g.info s)
  | none => answer body

/-- RangeCheck (R44): MEMORY with the region's start. -/
def rangeGuard (s : State) (a : Word) (n : Nat) : Guard :=
  ⟨!inRange s.cfg.memSize a n, .memory, a⟩

/-- `RequireOpen()` (R87). -/
def requireOpen (s : State) : Guard := ⟨!s.strmOpen, .streamState, 0⟩

/-- `RequireClosed()` (R87). -/
def requireClosed (s : State) : Guard := ⟨s.strmOpen, .streamState, 1⟩

/-! The output stream (R84 to R88). -/

/-- How a request to the sink ended: the command goes on, or it has raised its error. -/
inductive Attempt
  | went (s : State)
  | raised (s : State)
deriving DecidableEq, Repr

/-- The rest of the step after a request; nothing of it runs after a raise (R12). -/
def Attempt.andThen (a : Attempt) (k : State → State) : State :=
  match a with
  | .went s => k s
  | .raised s => s

/-- The sink's answer to an open: the next of the queue, and a free value where the queue is empty
(R9, notes/assumptions/7.md). -/
def openAnswer (s : State) : OpenOutcome :=
  match s.opens with
  | [] => Config.openAnswer s.draws
  | o :: _ => o

/-- The state after an answer to an open has been taken. -/
def takeOpen (s : State) : State :=
  match s.opens with
  | [] => { s with draws := s.draws + 1 }
  | _ :: os => { s with opens := os }

/-- The sink's answer to an append. -/
def writeAnswer (s : State) : WriteOutcome :=
  match s.writes with
  | [] => Config.writeAnswer s.draws
  | w :: _ => w

/-- The state after an answer to an append has been taken. -/
def takeWrite (s : State) : State :=
  match s.writes with
  | [] => { s with draws := s.draws + 1 }
  | _ :: ws => { s with writes := ws }

/-- The stream open and empty, OUT_COUNT 0 (R85). -/
def emptyStream (s : State) : State := { s with out := [], strmOpen := true, outCount := 0 }

/-- What a refused open leaves: OUT emptied or as it was (R85). -/
def refuseOpen (truncated : Bool) (s : State) : State :=
  { s with out := if truncated then [] else s.out }

/-- `StreamOpen()` (R85). -/
def streamOpen (s : State) : Attempt :=
  match openAnswer s with
  | .success => .went (emptyStream (takeOpen s))
  | .failure truncated => .raised (raise .ioOpen 0 (refuseOpen truncated (takeOpen s)))

/-- `StreamClose()` (R86): it never fails. -/
def streamClose (s : State) : State := { s with strmOpen := false }

/-- Bytes landing at the end of the stream; OUT_COUNT counts them modulo 2^32 (R28, R88). -/
def land (bs : Bytes) (s : State) : State :=
  { s with out := s.out ++ bs, outCount := s.outCount + BitVec.ofNat 32 bs.length }

/-- IO_WRITE with OUT_COUNT after the landed bytes (R88, R129). -/
def raiseWrite (s : State) : State := raise .ioWrite s.outCount s

/-- `Append(bs)` (R88). -/
def append (bs : Bytes) (s : State) : Attempt :=
  match writeAnswer s with
  | .success => .went (land bs (takeWrite s))
  | .failure k => .raised (raiseWrite (land (bs.take k) (takeWrite s)))

end Sys2Proof.Machine
end

