-- ==== Sys2Proof/Machine/Operands.lean ====
section
/-! DEFINITION. Operands: the register window (R15 to R30), image dimensions and sizes (R99, R100,
R126), pixel words (R48, R124, R125), and the memory regions a command works on (R55). -/

namespace Sys2Proof.Machine

/-! The register window. -/

/-- A Host read of the register at word index `i` (R15 to R29). CMD and the reserved registers read 0. -/
def readRegister (i : Nat) (s : State) : Word :=
  match i with
  | 0 => 0
  | 1 => statusWord s
  | 2 => s.errInfo
  | 3 => s.ops.seed
  | 4 => s.ops.srcAddr
  | 5 => s.ops.srcLen
  | 6 => s.ops.dstAddr
  | 7 => s.ops.dstCap
  | 8 => s.ops.width
  | 9 => s.ops.height
  | 10 => s.ops.chunkType
  | 11 => s.result
  | 12 => s.outCount
  | _ => 0

/-- A Host write to the register at word index `i` (R15 to R30). Writes to the read-only and the
reserved registers change nothing; a write to an operand register never touches the latches. -/
def writeRegister (i : Nat) (v : Word) (s : State) : State :=
  match i with
  | 0 => writeCommand v s
  | 3 => { s with ops := { s.ops with seed := v } }
  | 4 => { s with ops := { s.ops with srcAddr := v } }
  | 5 => { s with ops := { s.ops with srcLen := v } }
  | 6 => { s with ops := { s.ops with dstAddr := v } }
  | 7 => { s with ops := { s.ops with dstCap := v } }
  | 8 => { s with ops := { s.ops with width := v } }
  | 9 => { s with ops := { s.ops with height := v } }
  | 10 => { s with ops := { s.ops with chunkType := v } }
  | _ => s

/-! Image dimensions and sizes. -/

/-- The largest count a 32-bit register holds. -/
def maxCount : Nat := 0xFFFFFFFF

/-- S, the size of the RGB buffer (R100). -/
def rgbSize (o : OperandRegs) : Nat := 3 * o.width.toNat * o.height.toNat

/-- F, the size of the filtered scanlines (R100). -/
def filteredSize (o : OperandRegs) : Nat := o.height.toNat * (3 * o.width.toNat + 1)

/-- N, the number of pixels (R126). -/
def pixelCount (o : OperandRegs) : Nat := o.width.toNat * o.height.toNat

/-- DimCheck for FILT, FCOMP and ENCPNG (R99). -/
def dimGuard (o : OperandRegs) : Guard :=
  ⟨o.width == 0 || o.height == 0 || decide (maxCount < filteredSize o), .badDim, 0⟩

/-- The dimension check of RGB (R126). -/
def pixelDimGuard (o : OperandRegs) : Guard :=
  ⟨o.width == 0 || o.height == 0 || decide (maxCount < 4 * pixelCount o), .badDim, 0⟩

/-- The declared source size holds the `n` bytes the image needs (R103, R109, R113, R126). -/
def sourceSizeGuard (o : OperandRegs) (n : Nat) : Guard :=
  ⟨decide (o.srcLen.toNat < n), .memory, o.srcAddr⟩

/-- The destination capacity holds `n` bytes (R103, R126). -/
def capacityGuard (o : OperandRegs) (n : Nat) : Guard :=
  ⟨decide (o.dstCap.toNat < n), .memory, o.dstAddr⟩

/-- OverlapCheck of the source region of `n` bytes and the destination region (R45). -/
def overlapGuard (o : OperandRegs) (n : Nat) : Guard :=
  ⟨overlaps o.srcAddr n o.dstAddr o.dstCap.toNat, .overlap, o.dstAddr⟩

/-! The filter dispatcher (R63, R101). -/

/-- The filter types the device has: type 0, "None". -/
inductive FilterType
  | none
deriving DecidableEq, Repr

/-- The filter type a FILT field selects (R63). -/
def FilterType.ofField (ft : BitVec 3) : Option FilterType :=
  if ft = 0 then some .none else Option.none

/-- R65 test 4: ILLEGAL_FILTER with the FILT field (R129). -/
def filterGuard (ft : BitVec 3) : Guard :=
  ⟨(FilterType.ofField ft).isNone, .illegalFilter, ft.setWidth 32⟩

/-- FilterRow (R101): the filter-type byte, then the row's bytes unchanged. -/
def filterRow (t : FilterType) (row : Bytes) : Bytes :=
  match t with
  | .none => 0x00 :: row

/-- The filtered scanlines (R102): rows of `3 * w` bytes, `h` of them, row-major. -/
def filtered (rgb : Bytes) (w : Nat) : Nat → Bytes
  | 0 => []
  | h + 1 => filterRow .none (rgb.take (3 * w)) ++ filtered (rgb.drop (3 * w)) w h

/-! Pixel words. -/

/-- The pixel word four bytes of memory hold (R48, R125). -/
def pixelWord (order : ByteOrder) (b0 b1 b2 b3 : Byte) : Word :=
  match order with
  | .le => le32 b0 b1 b2 b3
  | .be => be32val b0 b1 b2 b3

/-- PixelToRGB (R124): red, green, blue; the high byte is ignored. -/
def pixelToRgb (w : Word) : Bytes :=
  [w.extractLsb' 16 8, w.extractLsb' 8 8, w.extractLsb' 0 8]

/-- The RGB bytes of a buffer of pixel words, one lane a word (R126, R127). -/
def toRgb (order : ByteOrder) : Bytes → Bytes
  | b0 :: b1 :: b2 :: b3 :: rest => pixelToRgb (pixelWord order b0 b1 b2 b3) ++ toRgb order rest
  | _ => []

/-! The regions of a command (R55). -/

/-- A region of buffer memory: its start and its number of bytes (R44). -/
structure Region where
  start : Word
  size : Nat
deriving DecidableEq, Repr

/-- The region of no bytes. -/
def Region.empty : Region := ⟨0, 0⟩

/-- Whether an address lies in the region. -/
def Region.contains (r : Region) (a : Nat) : Bool :=
  decide (r.start.toNat ≤ a) && decide (a < r.start.toNat + r.size)

/-- The region a command reads, as its rule lists it, taken from the latches (R55); a command whose
filter type is illegal reads nothing (R63). -/
def sourceRegion (i : Instr) (o : OperandRegs) : Region :=
  match i with
  | .tblinit => .empty
  | .crc => ⟨o.srcAddr, o.srcLen.toNat⟩
  | .sopen => .empty
  | .sclose => .empty
  | .wsig => .empty
  | .wchunk => ⟨o.srcAddr, o.srcLen.toNat⟩
  | .filt ft => if ft = 0 then ⟨o.srcAddr, rgbSize o⟩ else .empty
  | .fcomp ft => if ft = 0 then ⟨o.srcAddr, rgbSize o⟩ else .empty
  | .encpng ft => if ft = 0 then ⟨o.srcAddr, rgbSize o⟩ else .empty
  | .rgb => ⟨o.srcAddr, 4 * pixelCount o⟩

/-- The region a command writes, as its rule lists it, taken from the latches (R55). -/
def destRegion (i : Instr) (o : OperandRegs) : Region :=
  match i with
  | .tblinit => .empty
  | .crc => .empty
  | .sopen => .empty
  | .sclose => .empty
  | .wsig => .empty
  | .wchunk => .empty
  | .filt ft => if ft = 0 then ⟨o.dstAddr, o.dstCap.toNat⟩ else .empty
  | .fcomp ft => if ft = 0 then ⟨o.dstAddr, o.dstCap.toNat⟩ else .empty
  | .encpng ft => if ft = 0 then ⟨o.dstAddr, o.dstCap.toNat⟩ else .empty
  | .rgb => ⟨o.dstAddr, o.dstCap.toNat⟩

end Sys2Proof.Machine
end

