-- ==== Sys2Proof/Machine/Bus.lean ====
section
/-! DEFINITION. The Host's bus transactions (R70), the race check (R55), reset (R148), and who moves
next (R4, R144). -/

namespace Sys2Proof.Machine

/-! Races (R55). -/

/-- The source region of the running command; an illegal word has none. -/
def runningSource (s : State) : Region :=
  match decode s.lat.cmd with
  | .ok i => sourceRegion i s.lat.ops
  | .error _ => .empty

/-- The destination region of the running command. -/
def runningDest (s : State) : Region :=
  match decode s.lat.cmd with
  | .ok i => destRegion i s.lat.ops
  | .error _ => .empty

/-- A Host write to a byte the running command reads or writes (R55). -/
def writeRaces (s : State) (a : Word) : Bool :=
  s.busy && ((runningSource s).contains a.toNat || (runningDest s).contains a.toNat)

/-- A Host read of a byte the running command writes (R55). -/
def readRaces (s : State) (a : Word) : Bool :=
  s.busy && (runningDest s).contains a.toNat

/-! The transactions. -/

/-- A register access is one whole aligned word (R47). -/
def registerAccessOk (width : AccessWidth) (off : BitVec 8) : Bool :=
  width == .word && off.extractLsb' 0 2 == 0

/-- The word index of a register offset (R15). -/
def registerIndex (off : BitVec 8) : Nat := off.toNat / 4

/-- RD (R70). -/
def hostRd (width : AccessWidth) (off : BitVec 8) (s : State) : Host.Outcome State Fault Refusal :=
  if registerAccessOk width off then .next { s with rdata := readRegister (registerIndex off) s }
  else .refused .refusedAccess

/-- WR (R70). -/
def hostWr (width : AccessWidth) (off : BitVec 8) (v : Word) (s : State) :
    Host.Outcome State Fault Refusal :=
  if registerAccessOk width off then .next (writeRegister (registerIndex off) v s)
  else .refused .refusedAccess

/-- What the Host reads at an address of buffer memory: every byte holds a value at all times (R43),
before its first write a free one (notes/assumptions/12.md). -/
def hostByte (s : State) (a : Word) : Byte :=
  match s.mem.read a.toNat with
  | some b => b
  | none => Config.powerOnByte a.toNat

/-- MRD (R70). -/
def hostMrd (a : Word) (s : State) : Host.Outcome State Fault Refusal :=
  if a.toNat < s.cfg.memSize then
    if readRaces s a then .fault .hostRace
    else .next { s with rdata := (hostByte s a).setWidth 32 }
  else .refused .refusedAccess

/-- MWR (R70). -/
def hostMwr (a : Word) (b : Byte) (s : State) : Host.Outcome State Fault Refusal :=
  if a.toNat < s.cfg.memSize then
    if writeRaces s a then .fault .hostRace
    else .next { s with mem := s.mem.write a.toNat b }
  else .refused .refusedAccess

/-- Free values for the eight operand latches after a RESET (R148). -/
def freeOperands (n : Nat) : OperandRegs :=
  { seed := Config.resetWord n 1
    srcAddr := Config.resetWord n 2
    srcLen := Config.resetWord n 3
    dstAddr := Config.resetWord n 4
    dstCap := Config.resetWord n 5
    width := Config.resetWord n 6
    height := Config.resetWord n 7
    chunkType := Config.resetWord n 8 }

/-- RESET (R148, R149): every register to its R40 value; the latches, TBL and ZLEN become free values
(notes/assumptions/11.md); OUT and MEM keep their contents. -/
def resetDevice (s : State) : State :=
  { s with
    ops := OperandRegs.zero
    lat := { cmd := Config.resetWord s.draws 0, ops := freeOperands s.draws }
    busy := false
    done := false
    err := false
    ovr := false
    errCode := none
    tblValid := false
    strmOpen := false
    phase := .idle
    errInfo := 0
    result := 0
    outCount := 0
    tbl := Vector.ofFn fun i => Config.resetWord s.draws (10 + i.val)
    zlen := Config.resetWord s.draws 9
    draws := s.draws + 1 }

/-- One Host transaction (R70). -/
def hostStep (t : Txn) (s : State) : Host.Outcome State Fault Refusal :=
  match t with
  | .rd width off => hostRd width off s
  | .wr width off v => hostWr width off v s
  | .mrd a => hostMrd a s
  | .mwr a b => hostMwr a b s
  | .reset => .next (resetDevice s)

/-! Who moves next. -/

/-- The agent of the next step. -/
inductive Mover
  | host (t : Txn)
  | engine
  | nobody
deriving DecidableEq, Repr

/-- The next turn of the queue; the Engine moves on its own once the queue is empty. It has a step
only while BUSY = 1 (R75, R144), so an idle Engine's turn is nobody's. -/
def nextMover (s : State) : Mover :=
  match s.script with
  | .host t :: _ => .host t
  | _ => if s.busy then .engine else .nobody

/-- The state with the turn taken from the queue. -/
def takeTurn (s : State) : State := { s with script := s.script.tail }

end Sys2Proof.Machine
end

