-- ==== Sys2Proof/Machine/Pixel.lean ====
section
/-! DEFINITION. The pixel converter (44_pixel_convert.md): RGB. -/

namespace Sys2Proof.Machine

/-- The source of RGB is aligned to a pixel word (R48). -/
def alignGuard (o : OperandRegs) : Guard :=
  ⟨o.srcAddr.extractLsb' 0 2 != 0, .misaligned, o.srcAddr⟩

/-- RGB's checks after decoding, in the order of R126. -/
def rgbGuards (s : State) : List Guard :=
  let o := s.lat.ops
  let n := pixelCount o
  [ pixelDimGuard o,
    alignGuard o,
    sourceSizeGuard o (4 * n),
    rangeGuard s o.srcAddr (4 * n),
    rangeGuard s o.dstAddr o.dstCap.toNat,
    capacityGuard o (3 * n),
    overlapGuard o (4 * n) ]

/-- RGB (R126). -/
def execRgb (s : State) : Host.Outcome State Fault Refusal :=
  let o := s.lat.ops
  let n := pixelCount o
  guarded (rgbGuards s) s do
    let words ← memRead o.srcAddr (4 * n) s
    let t ← memWrite o.dstAddr (toRgb s.cfg.pixelByteOrder words) s
    return completeWith (BitVec.ofNat 32 (3 * n)) t

end Sys2Proof.Machine
end

