-- ==== Sys2Proof/Machine/Zlib.lean ====
section
/-! DEFINITION. The compressor (R8, R104 to R108): the zlib container, Adler-32, the decompression of
the DEFLATE format, the reference instance, and `Deflate` with exactly the properties of R107. The
DEFLATE bit format is not in the spec: PRESUMED, as RFC 1951 (notes/assumptions/5.md). -/

namespace Sys2Proof.Machine

/-! Adler-32 (R105). -/

/-- One byte of Adler-32: the pair (a, b). -/
def adlerStep (ab : Nat × Nat) (x : Byte) : Nat × Nat :=
  let a := (ab.1 + x.toNat) % 65521
  (a, (ab.2 + a) % 65521)

/-- Adler32 (R105). -/
def adler32 (x : Bytes) : Word :=
  let ab := x.foldl adlerStep (1, 0)
  BitVec.ofNat 32 (ab.2 * 65536 + ab.1)

/-! The DEFLATE format. Bits are taken from each byte least significant first. -/

/-- The bits of a byte in stream order. -/
def byteBits (b : Byte) : List Bool := (List.range 8).map b.getLsbD

/-- The bits of a byte sequence in stream order. -/
def bitsOf (d : Bytes) : List Bool := d.flatMap byteBits

/-- The number the next `n` bits form, first bit least significant, and the bits after them. -/
def takeBits : Nat → List Bool → Option (Nat × List Bool)
  | 0, bs => some (0, bs)
  | _ + 1, [] => none
  | n + 1, b :: bs =>
    match takeBits n bs with
    | some (v, rest) => some (b.toNat + 2 * v, rest)
    | none => none

/-- The next `n` whole bytes. -/
def takeBytes : Nat → List Bool → Option (Bytes × List Bool)
  | 0, bs => some ([], bs)
  | n + 1, bs =>
    match takeBits 8 bs with
    | none => none
    | some (v, rest) =>
      match takeBytes n rest with
      | some (xs, rest') => some (BitVec.ofNat 8 v :: xs, rest')
      | none => none

/-- A canonical Huffman code is given by the code length of each symbol, 0 for a symbol not used. The
symbols of one length, in symbol order. -/
def symbolsOfLength (lens : List Nat) (n : Nat) : List Nat :=
  (List.range lens.length).filter fun i => lens[i]? == some n

/-- How much of the code space of 15-bit codes the lengths take up. -/
def codeSpace (lens : List Nat) : Nat :=
  (lens.map fun n => if n = 0 then 0 else 2 ^ (15 - n)).sum

/-- The lengths make a code: complete, or empty, or one code of one bit. -/
def codeOk (lens : List Nat) : Bool :=
  codeSpace lens == 2 ^ 15 || lens.all (· == 0)
    || (lens.count 1 == 1 && lens.count 0 + 1 == lens.length)

/-- The symbol of the code the bits begin with. `code` is the bits read so far, most significant
first, and `first` the first code of length `len`. -/
def decodeSymbol (lens : List Nat) :
    (fuel len code first : Nat) → List Bool → Option (Nat × List Bool)
  | 0, _, _, _, _ => none
  | _ + 1, _, _, _, [] => none
  | fuel + 1, len, code, first, b :: bs =>
    let code := 2 * code + b.toNat
    let syms := symbolsOfLength lens len
    if code < first + syms.length then
      match syms[code - first]? with
      | some sym => some (sym, bs)
      | none => none
    else decodeSymbol lens fuel (len + 1) code (2 * (first + syms.length)) bs

/-- The next symbol of a code; no code is longer than 15 bits. -/
def nextSymbol (lens : List Nat) (bs : List Bool) : Option (Nat × List Bool) :=
  decodeSymbol lens 15 1 0 0 bs

/-- The base length and number of extra bits of length symbol 257 + i. -/
def lengthTable : List (Nat × Nat) :=
  [(3, 0), (4, 0), (5, 0), (6, 0), (7, 0), (8, 0), (9, 0), (10, 0), (11, 1), (13, 1), (15, 1), (17, 1)]
    ++ [(19, 2), (23, 2), (27, 2), (31, 2), (35, 3), (43, 3), (51, 3), (59, 3)]
    ++ [(67, 4), (83, 4), (99, 4), (115, 4), (131, 5), (163, 5), (195, 5), (227, 5), (258, 0)]

/-- The base distance and number of extra bits of distance symbol i. -/
def distanceTable : List (Nat × Nat) :=
  [(1, 0), (2, 0), (3, 0), (4, 0), (5, 1), (7, 1), (9, 2), (13, 2), (17, 3), (25, 3), (33, 4), (49, 4)]
    ++ [(65, 5), (97, 5), (129, 6), (193, 6), (257, 7), (385, 7), (513, 8), (769, 8), (1025, 9)]
    ++ [(1537, 9), (2049, 10), (3073, 10), (4097, 11), (6145, 11), (8193, 12), (12289, 12)]
    ++ [(16385, 13), (24577, 13)]

/-- A base and its extra bits. -/
def withExtra (row : Option (Nat × Nat)) (bs : List Bool) : Option (Nat × List Bool) :=
  match row with
  | none => none
  | some (base, extra) =>
    match takeBits extra bs with
    | some (v, rest) => some (base + v, rest)
    | none => none

/-- Copy `n` bytes from `d` bytes back; `acc` is the output so far, last byte first. -/
def copyBack : (n d : Nat) → Bytes → Option Bytes
  | 0, _, acc => some acc
  | n + 1, d, acc =>
    match acc[d - 1]? with
    | some b => copyBack n d (b :: acc)
    | none => none

/-- A length and distance pair, after length symbol `sym`. -/
def copyPair (dist : List Nat) (sym : Nat) (bs : List Bool) (acc : Bytes) :
    Option (Bytes × List Bool) :=
  match withExtra lengthTable[sym - 257]? bs with
  | none => none
  | some (n, bs) =>
    match nextSymbol dist bs with
    | none => none
    | some (dsym, bs) =>
      match withExtra distanceTable[dsym]? bs with
      | none => none
      | some (d, bs) =>
        match copyBack n d acc with
        | some acc => some (acc, bs)
        | none => none

/-- The compressed data of one block, up to its end symbol 256. -/
def inflateCodes (lit dist : List Nat) :
    (fuel : Nat) → List Bool → Bytes → Option (Bytes × List Bool)
  | 0, _, _ => none
  | fuel + 1, bs, acc =>
    match nextSymbol lit bs with
    | none => none
    | some (sym, bs) =>
      if sym < 256 then inflateCodes lit dist fuel bs (BitVec.ofNat 8 sym :: acc)
      else if sym = 256 then some (acc, bs)
      else
        match copyPair dist sym bs acc with
        | some (acc, bs) => inflateCodes lit dist fuel bs acc
        | none => none

/-- A stored block: to the next byte boundary, LEN, its complement, and LEN bytes. -/
def inflateStored (bs : List Bool) (acc : Bytes) : Option (Bytes × List Bool) :=
  match takeBits 16 (bs.drop (bs.length % 8)) with
  | none => none
  | some (len, bs) =>
    match takeBits 16 bs with
    | none => none
    | some (nlen, bs) =>
      if len + nlen = 65535 then
        match takeBytes len bs with
        | some (xs, bs) => some (xs.reverse ++ acc, bs)
        | none => none
      else none

/-- The literal and length code of fixed blocks. -/
def fixedLit : List Nat :=
  List.replicate 144 8 ++ List.replicate 112 9 ++ List.replicate 24 7 ++ List.replicate 8 8

/-- The distance code of fixed blocks. -/
def fixedDist : List Nat := List.replicate 30 5

/-- The order in which a dynamic block lists the lengths of the code length code. -/
def lengthOrder : List Nat :=
  [16, 17, 18, 0, 8, 7, 9, 6, 10, 5, 11, 4, 12, 3, 13, 2, 14, 1, 15]

/-- The next `n` 3-bit numbers. -/
def takeTriples : Nat → List Bool → Option (List Nat × List Bool)
  | 0, bs => some ([], bs)
  | n + 1, bs =>
    match takeBits 3 bs with
    | none => none
    | some (v, bs) =>
      match takeTriples n bs with
      | some (vs, bs) => some (v :: vs, bs)
      | none => none

/-- The lengths a dynamic block lists; `acc` is those read so far, last first, `total` their number in
the end. -/
def readLengths (codeLens : List Nat) (total : Nat) :
    (fuel : Nat) → List Bool → List Nat → Option (List Nat × List Bool)
  | 0, _, _ => none
  | fuel + 1, bs, acc =>
    if acc.length = total then some (acc.reverse, bs)
    else if total < acc.length then none
    else
      match nextSymbol codeLens bs with
      | none => none
      | some (sym, bs) =>
        if sym < 16 then readLengths codeLens total fuel bs (sym :: acc)
        else if sym = 16 then
          match acc, takeBits 2 bs with
          | last :: _, some (v, bs) =>
            readLengths codeLens total fuel bs (List.replicate (3 + v) last ++ acc)
          | _, _ => none
        else if sym = 17 then
          match takeBits 3 bs with
          | some (v, bs) => readLengths codeLens total fuel bs (List.replicate (3 + v) 0 ++ acc)
          | none => none
        else
          match takeBits 7 bs with
          | some (v, bs) => readLengths codeLens total fuel bs (List.replicate (11 + v) 0 ++ acc)
          | none => none

/-- The length the code length code gives symbol `i`, from the lengths in listed order. -/
def lengthListed (listed : List Nat) (i : Nat) : Nat :=
  (listed[lengthOrder.idxOf i]?).getD 0

/-- The two codes of a dynamic block. -/
def dynamicCodes (bs : List Bool) : Option ((List Nat × List Nat) × List Bool) :=
  match takeBits 5 bs with
  | none => none
  | some (hlit, bs) =>
  match takeBits 5 bs with
  | none => none
  | some (hdist, bs) =>
  match takeBits 4 bs with
  | none => none
  | some (hclen, bs) =>
  match takeTriples (hclen + 4) bs with
  | none => none
  | some (listed, bs) =>
    let codeLens := (List.range 19).map (lengthListed listed)
    let total := hlit + 257 + (hdist + 1)
    match readLengths codeLens total (total + 1) bs [] with
    | none => none
    | some (lens, bs) =>
      let lit := lens.take (hlit + 257)
      let dist := lens.drop (hlit + 257)
      if hlit ≤ 29 && hdist ≤ 29 && codeOk codeLens && codeOk lit && codeOk dist then
        some ((lit, dist), bs)
      else none

/-- The data of one block, by its two type bits. -/
def inflateBlock (type : Nat) (bs : List Bool) (acc : Bytes) : Option (Bytes × List Bool) :=
  if type = 0 then inflateStored bs acc
  else if type = 1 then inflateCodes fixedLit fixedDist (bs.length + 1) bs acc
  else if type = 2 then
    match dynamicCodes bs with
    | some ((lit, dist), bs) => inflateCodes lit dist (bs.length + 1) bs acc
    | none => none
  else none

/-- The blocks up to the one whose first bit says it is the last. -/
def inflateBlocks : (fuel : Nat) → List Bool → Bytes → Option (Bytes × List Bool)
  | 0, _, _ => none
  | fuel + 1, bs, acc =>
    match takeBits 1 bs with
    | none => none
    | some (final, bs) =>
      match takeBits 2 bs with
      | none => none
      | some (type, bs) =>
        match inflateBlock type bs acc with
        | none => none
        | some (acc, bs) => if final = 1 then some (acc, bs) else inflateBlocks fuel bs acc

/-- The bytes a DEFLATE body decompresses to; the last block ends in the body's last byte. -/
def inflate (d : Bytes) : Option Bytes :=
  let bs := bitsOf d
  match inflateBlocks (bs.length + 1) bs [] with
  | some (acc, rest) => if rest.length < 8 then some acc.reverse else none
  | none => none

/-! The zlib container (R104). -/

/-- The two header bytes: method 8, a window size of at most 7, no preset dictionary, and a check
that makes them a multiple of 31. -/
def zlibHeaderOk (cmf flg : Byte) : Bool :=
  cmf.extractLsb' 0 4 == 8 && decide ((cmf.extractLsb' 4 4).toNat ≤ 7) && !flg.getLsbD 5
    && (cmf.toNat * 256 + flg.toNat) % 31 == 0

/-- R104: `z` is a zlib stream of `x`. -/
def isZlibStreamOf (x z : Bytes) : Bool :=
  match z with
  | cmf :: flg :: rest =>
    zlibHeaderOk cmf flg && decide (4 ≤ rest.length)
      && inflate (rest.take (rest.length - 4)) == some x
      && rest.drop (rest.length - 4) == be32 (adler32 x)
  | _ => false

/-! The reference instance (R108). -/

/-- The longest stored block. -/
def maxStored : Nat := 65535

/-- One stored block. -/
def storedBlock (final : Byte) (x : Bytes) : Bytes :=
  final :: le16 (BitVec.ofNat 16 x.length) ++ le16 (~~~ BitVec.ofNat 16 x.length) ++ x

/-- Blocks (R108): pieces of 65535 bytes, the last one final. -/
def storedBlocks : (fuel : Nat) → Bytes → Bytes
  | 0, _ => []
  | fuel + 1, x =>
    if x.length ≤ maxStored then storedBlock 0x01 x
    else storedBlock 0x00 (x.take maxStored) ++ storedBlocks fuel (x.drop maxStored)

/-- DEFLATE_REF (R108). -/
def deflateRef (x : Bytes) : Bytes :=
  [0x78, 0x01] ++ storedBlocks (x.length + 1) x ++ be32 (adler32 x)

/-! `Deflate`. -/

/-- `Deflate` (R8): the machine's compressor. The hardware's is an unknown function, held to R107
property 2: what it gives for `x` is a zlib stream of `x`, and it may give none. -/
def deflate (c : Compressor) (x : Bytes) : Option Bytes :=
  match c with
  | .parameter => (Config.deflateParam x).filter (isZlibStreamOf x)
  | .reference => some (deflateRef x)

end Sys2Proof.Machine
end

