-- ==== Sys2Proof/Machine/Filter.lean ====
section
/-! DEFINITION. The scanline filter and compressor (42_filter_compress.md): FILT and FCOMP. -/

namespace Sys2Proof.Machine

/-- FILT's checks after decoding, in the order of R103. -/
def filtGuards (ft : BitVec 3) (s : State) : List Guard :=
  let o := s.lat.ops
  [ filterGuard ft,
    dimGuard o,
    sourceSizeGuard o (rgbSize o),
    rangeGuard s o.srcAddr (rgbSize o),
    rangeGuard s o.dstAddr o.dstCap.toNat,
    capacityGuard o (filteredSize o),
    overlapGuard o (rgbSize o) ]

/-- FILT (R103). -/
def execFilt (ft : BitVec 3) (s : State) : Host.Outcome State Fault Refusal :=
  let o := s.lat.ops
  guarded (filtGuards ft s) s do
    let rgb ← memRead o.srcAddr (rgbSize o) s
    let t ← memWrite o.dstAddr (filtered rgb o.width.toNat o.height.toNat) s
    return completeWith (BitVec.ofNat 32 (filteredSize o)) t

/-- FCOMP's checks after decoding, in the order of R109. ENCPNG makes the same ones (R113). -/
def fcompGuards (ft : BitVec 3) (s : State) : List Guard :=
  let o := s.lat.ops
  [ filterGuard ft,
    dimGuard o,
    sourceSizeGuard o (rgbSize o),
    rangeGuard s o.srcAddr (rgbSize o),
    rangeGuard s o.dstAddr o.dstCap.toNat,
    overlapGuard o (rgbSize o) ]

/-- COMPRESSION: the destination region is scrambled first (R106, R110). -/
def compressionError (info : Word) (s : State) : Except Fault State := do
  let t ← memScramble s.lat.ops.dstAddr s.lat.ops.dstCap.toNat s
  return raise .compression info t

/-- Compress (R106) and the store of its output at the destination (R109, R117); `k` is the rest of
the step, given the length of the output. -/
def compressTo (x : Bytes) (k : Nat → State → State) (s : State) : Except Fault State :=
  match deflate s.cfg.compressor x with
  | none => compressionError 0 s
  | some z =>
    if s.lat.ops.dstCap.toNat < z.length then
      compressionError (BitVec.ofNat 32 (min z.length maxCount)) s
    else do
      let t ← memWrite s.lat.ops.dstAddr z s
      return k z.length t

/-- The filtered image of the latched dimensions, read from the source (R102, R109, R117). -/
def filteredSource (s : State) : Except Fault Bytes := do
  let o := s.lat.ops
  let rgb ← memRead o.srcAddr (rgbSize o) s
  return filtered rgb o.width.toNat o.height.toNat

/-- FCOMP (R109). -/
def execFcomp (ft : BitVec 3) (s : State) : Host.Outcome State Fault Refusal :=
  guarded (fcompGuards ft s) s do
    let x ← filteredSource s
    compressTo x (fun n => completeWith (BitVec.ofNat 32 n)) s

end Sys2Proof.Machine
end

