-- ==== Sys2Proof/Machine/Crc.lean ====
section
/-! DEFINITION. The CRC32 engine (40_crc32.md): the table, the checksum, TBLINIT and CRC. -/

namespace Sys2Proof.Machine

/-- One of the eight steps of the reflected recurrence (R76). -/
def tblShift (c : Word) : Word :=
  if c.getLsbD 0 then 0xEDB88320 ^^^ (c >>> 1) else c >>> 1

/-- TblEntry (R76). -/
def tblEntry (n : Byte) : Word :=
  tblShift (tblShift (tblShift (tblShift (tblShift (tblShift (tblShift (tblShift
    (n.setWidth 32))))))))

/-- The table the build stores (R77). -/
def builtTable : Vector Word 256 := Vector.ofFn fun i => tblEntry (BitVec.ofFin i)

/-- `EnsureTable()` (R77): the only writer of TBL and the only setter of TBL_VALID. -/
def ensureTable (s : State) : State :=
  if s.tblValid then s else { s with tbl := builtTable, tblValid := true }

/-- CrcStep (R78), over the stored table. The index is the low byte of `c ^ b`. -/
def crcStep (tbl : Vector Word 256) (c : Word) (b : Byte) : Word :=
  tbl.get (((c ^^^ b.setWidth 32).setWidth 8).toFin) ^^^ (c >>> 8)

/-- crc32 (R79), over the stored table. -/
def crc32 (tbl : Vector Word 256) (seed : Word) (data : Bytes) : Word :=
  data.foldl (crcStep tbl) (seed ^^^ 0xFFFFFFFF) ^^^ 0xFFFFFFFF

/-- TBLINIT (R81). -/
def execTblinit (s : State) : Host.Outcome State Fault Refusal :=
  guarded [] s (.ok (complete (ensureTable s)))

/-- CRC (R82). -/
def execCrc (s : State) : Host.Outcome State Fault Refusal :=
  let o := s.lat.ops
  guarded [rangeGuard s o.srcAddr o.srcLen.toNat] s do
    let t := ensureTable s
    let data ← memRead o.srcAddr o.srcLen.toNat t
    return completeWith (crc32 t.tbl o.seed data) t

end Sys2Proof.Machine
end

