-- ==== Sys2Proof/Machine/Stream.lean ====
section
/-! DEFINITION. The chunk writer (41_chunk_writer.md): chunk framing, SOPEN, SCLOSE, WSIG, WCHUNK. -/

namespace Sys2Proof.Machine

/-- The PNG signature (R89). -/
def signature : Bytes := [0x89, 0x50, 0x4E, 0x47, 0x0D, 0x0A, 0x1A, 0x0A]

/-- The largest payload of a chunk (R92). -/
def maxPayload : Nat := 0x7FFFFFFF

/-- The CRC field of a chunk: over type and payload, seed 0 (R90, R91). -/
def chunkCrc (tbl : Vector Word 256) (t p : Bytes) : Word := crc32 tbl 0 (t ++ p)

/-- ChunkBytes (R90). -/
def chunkBytes (tbl : Vector Word 256) (t p : Bytes) : Bytes :=
  be32 (BitVec.ofNat 32 p.length) ++ t ++ p ++ be32 (chunkCrc tbl t p)

/-- SOPEN (R93). -/
def execSopen (s : State) : Host.Outcome State Fault Refusal :=
  guarded [requireClosed s] s (.ok ((streamOpen s).andThen complete))

/-- SCLOSE (R94). -/
def execSclose (s : State) : Host.Outcome State Fault Refusal :=
  guarded [requireOpen s] s (.ok (complete (streamClose s)))

/-- WSIG (R95). -/
def execWsig (s : State) : Host.Outcome State Fault Refusal :=
  guarded [requireOpen s] s (.ok ((append signature s).andThen complete))

/-- The length limit (R92). -/
def lengthGuard (n : Word) : Guard := ⟨decide (maxPayload < n.toNat), .length, n⟩

/-- WCHUNK (R96). The tag is written as given (R98). -/
def execWchunk (s : State) : Host.Outcome State Fault Refusal :=
  let o := s.lat.ops
  guarded [lengthGuard o.srcLen, rangeGuard s o.srcAddr o.srcLen.toNat, requireOpen s] s do
    let t := ensureTable s
    let p ← memRead o.srcAddr o.srcLen.toNat t
    return (append (chunkBytes t.tbl (be32 o.chunkType) p) t).andThen
      (completeWith (chunkCrc t.tbl (be32 o.chunkType) p))

end Sys2Proof.Machine
end

