-- ==== Sys2Proof/Machine/Png.lean ====
section
/-! DEFINITION. The PNG encoder sequence (43_png_encoder.md): ENCPNG, one phase a step. -/

namespace Sys2Proof.Machine

/-- "IHDR" (R112). -/
def tagIhdr : Bytes := [0x49, 0x48, 0x44, 0x52]

/-- "IDAT" (R112). -/
def tagIdat : Bytes := [0x49, 0x44, 0x41, 0x54]

/-- "IEND" (R112). -/
def tagIend : Bytes := [0x49, 0x45, 0x4E, 0x44]

/-- IHDRPayload (R111). -/
def ihdrPayload (w h : Word) : Bytes := be32 w ++ be32 h ++ [0x08, 0x02, 0x00, 0x00, 0x00]

/-- PNGFile (R112). -/
def pngFile (tbl : Vector Word 256) (w h : Word) (z : Bytes) : Bytes :=
  signature ++ chunkBytes tbl tagIhdr (ihdrPayload w h) ++ chunkBytes tbl tagIdat z
    ++ chunkBytes tbl tagIend []

/-- `PHASE <- p`. -/
def toPhase (p : Phase) (s : State) : State := { s with phase := p }

/-- ENCPNG's checks at EXEC after decoding, in the order of R113. -/
def encpngGuards (ft : BitVec 3) (s : State) : List Guard :=
  fcompGuards ft s ++ [requireClosed s]

/-- The EXEC step (R113). -/
def encExec (ft : BitVec 3) (s : State) : Host.Outcome State Fault Refusal :=
  guarded (encpngGuards ft s) s (.ok (toPhase .opening s))

/-- Phase 2 (R114). -/
def encOpen (s : State) : State := (streamOpen s).andThen (toPhase .sig)

/-- Phase 3 (R115). -/
def encSig (s : State) : State := (append signature s).andThen (toPhase .ihdr)

/-- Phase 4 (R116). -/
def encIhdr (s : State) : State :=
  let t := ensureTable s
  (append (chunkBytes t.tbl tagIhdr (ihdrPayload s.lat.ops.width s.lat.ops.height)) t).andThen
    (toPhase .compress)

/-- The end of phase 5: `ZLEN <- n` and on to phase 6 (R117). -/
def storeLength (n : Nat) (s : State) : State :=
  toPhase .idat { s with zlen := BitVec.ofNat 32 n }

/-- Phase 5 (R117). -/
def encCompress (s : State) : Except Fault State := do
  let x ← filteredSource s
  compressTo x storeLength s

/-- Phase 6 (R118). -/
def encIdat (s : State) : Host.Outcome State Fault Refusal :=
  guarded [lengthGuard s.zlen] s do
    let z ← memRead s.lat.ops.dstAddr s.zlen.toNat s
    return (append (chunkBytes s.tbl tagIdat z) s).andThen (toPhase .iend)

/-- Phase 7 (R119). -/
def encIend (s : State) : State :=
  (append (chunkBytes s.tbl tagIend []) s).andThen (toPhase .closing)

/-- Phase 8 (R120). -/
def encClose (s : State) : State :=
  let t := streamClose s
  completeWith t.outCount t

/-- ENCPNG (R113 to R121): the step of the phase the Engine is at. An error ends it there, with the
phase and the effects of the earlier phases kept (R121). -/
def execEncpng (ft : BitVec 3) (s : State) : Host.Outcome State Fault Refusal :=
  match s.phase with
  | .idle => .fault .noPhaseStep
  | .exec => encExec ft s
  | .opening => .next (encOpen s)
  | .sig => .next (encSig s)
  | .ihdr => .next (encIhdr s)
  | .compress => answer (encCompress s)
  | .idat => encIdat s
  | .iend => .next (encIend s)
  | .closing => .next (encClose s)

end Sys2Proof.Machine
end

