-- ==== Sys2Proof/Machine/Dispatch.lean ====
section
/-! DEFINITION. One arm per command. -/

namespace Sys2Proof.Machine

def exec (i : Instr) (s : State) : Host.Outcome State Fault Refusal :=
  match i with
  | .tblinit => Sys2Proof.Machine.execTblinit s
  | .crc => Sys2Proof.Machine.execCrc s
  | .sopen => Sys2Proof.Machine.execSopen s
  | .sclose => Sys2Proof.Machine.execSclose s
  | .wsig => Sys2Proof.Machine.execWsig s
  | .wchunk => Sys2Proof.Machine.execWchunk s
  | .filt ft => Sys2Proof.Machine.execFilt ft s
  | .fcomp ft => Sys2Proof.Machine.execFcomp ft s
  | .encpng ft => Sys2Proof.Machine.execEncpng ft s
  | .rgb => Sys2Proof.Machine.execRgb s

end Sys2Proof.Machine
end

