-- ==== Sys2Proof/Machine/Step.lean ====
section
/-! DEFINITION. One step of the machine (R50, R53, R144): the whole of one agent's turn. -/

namespace Sys2Proof.Machine

/-- The Engine's step (R75): the latched word is decoded and its command runs; an illegal word
completes with ILLEGAL_CMD (R66). -/
def engineStep (s : State) : Host.Outcome State Fault Refusal :=
  match decode s.lat.cmd with
  | .ok i => exec i s
  | .error _ => .next (illegalCommand s)

/-- One step: the agent whose turn it is moves, in the state with the turn taken. With nobody to move
the device waits for a command word (R150), and the state stays (notes/assumptions/14.md). -/
def step (s : State) : Host.Outcome State Fault Refusal :=
  match nextMover s with
  | .host t => hostStep t (takeTurn s)
  | .engine => engineStep (takeTurn s)
  | .nobody => .next (takeTurn s)

/-- The state in which the command word `w` has just been accepted (R73) and the next turn is the
Engine's, so that the next step decodes and runs it (notes/assumptions/15.md). -/
def State.withFetchWord (s : State) (nbits w : Nat) : State :=
  { accept (tableWord nbits w) s with script := .engine :: s.script }

end Sys2Proof.Machine
end

