-- ==== Sys2Proof/Machine/HostAsm.lean ====
section
/-! DEFINITION. The Host's assembly lines and pseudo-instructions (R71, R72), as the turns they expand
to. The Host's own branches are the Host's and no transaction of the device. -/

namespace Sys2Proof.Machine

/-- The registers by name (R15). -/
inductive RegName
  | cmd
  | status
  | errinfo
  | seed
  | srcAddr
  | srcLen
  | dstAddr
  | dstCap
  | width
  | height
  | chunkType
  | result
  | outCount
deriving DecidableEq, Repr

/-- The byte offset of a register (R15). -/
def RegName.offset : RegName → BitVec 8
  | .cmd => 0x00
  | .status => 0x04
  | .errinfo => 0x08
  | .seed => 0x0C
  | .srcAddr => 0x10
  | .srcLen => 0x14
  | .dstAddr => 0x18
  | .dstCap => 0x1C
  | .width => 0x20
  | .height => 0x24
  | .chunkType => 0x28
  | .result => 0x2C
  | .outCount => 0x30

/-- One line of a Host program (R71, R72). -/
inductive HostLine
  | rd (r : RegName)
  | wr (r : RegName) (v : Word)
  | mw (a : Word) (bs : Bytes)
  | mr (a : Word) (n : Nat)
  | cmd (i : Instr)
  | rawCmd (v : Word)
  | reset
  | wait
  | run (i : Instr)
  | mw32 (a : Word) (v : Word)
  | wrtag (b0 b1 b2 b3 : Byte)
deriving DecidableEq, Repr

/-- A whole-word write of a named register. -/
def wrTurn (r : RegName) (v : Word) : Turn := .host (.wr .word r.offset v)

/-- `mw`: one MWR a byte, at rising addresses (R71). Past 0xFFFFFFFF the next address is 0: DESIGN CHOICE,
unsafe (notes/assumptions/28.md). -/
def mwTurns (a : Word) : Bytes → List Turn
  | [] => []
  | b :: bs => .host (.mwr a b) :: mwTurns (a + 1) bs

/-- `mr`: one MRD a byte, at rising addresses (R71). Past 0xFFFFFFFF the next address is 0: DESIGN CHOICE,
unsafe (notes/assumptions/28.md). -/
def mrTurns (a : Word) : Nat → List Turn
  | 0 => []
  | n + 1 => .host (.mrd a) :: mrTurns (a + 1) n

/-- `wait` (R72): poll until BUSY = 0. A command takes at most 8 Engine steps (R145), so eight turns of
the Engine and one read of STATUS are a poll that ends (notes/assumptions/24.md). -/
def waitTurns : List Turn :=
  List.replicate 8 .engine ++ [.host (.rd .word RegName.status.offset)]

/-- The bytes of a pixel word in memory order (R48, R72). -/
def wordBytes (order : ByteOrder) (v : Word) : Bytes :=
  match order with
  | .le => (be32 v).reverse
  | .be => be32 v

/-- The turns of a line. -/
def HostLine.turns (order : ByteOrder) : HostLine → List Turn
  | .rd r => [.host (.rd .word r.offset)]
  | .wr r v => [wrTurn r v]
  | .mw a bs => mwTurns a bs
  | .mr a n => mrTurns a n
  | .cmd i => [wrTurn .cmd (encode i)]
  | .rawCmd v => [wrTurn .cmd v]
  | .reset => [.host .reset]
  | .wait => waitTurns
  | .run i => wrTurn .cmd (encode i) :: waitTurns
  | .mw32 a v => mwTurns a (wordBytes order v)
  | .wrtag b0 b1 b2 b3 => [wrTurn .chunkType (be32val b0 b1 b2 b3)]

end Sys2Proof.Machine
end

