-- ==== Sys2Proof/Safety.lean ====
section
/-! DEFINITION. The terms claims use: what a command's operands must meet, the invariants of the
machine, and the completion record of a command (R142). -/

namespace Sys2Proof.Machine

/-! Operands, in the words of the rules. -/

/-- R44, as a statement: the region (a, n) is in range. -/
def RegionInRange (size : Nat) (a : Word) (n : Nat) : Prop := n = 0 ∨ a.toNat + n ≤ size

/-- R45, as a statement: the regions (a, n) and (b, m) overlap. -/
def RegionsOverlap (a : Word) (n : Nat) (b : Word) (m : Nat) : Prop :=
  0 < n ∧ 0 < m ∧ a.toNat < b.toNat + m ∧ b.toNat < a.toNat + n

/-- R99: the dimensions FILT, FCOMP and ENCPNG take. -/
def ImageDimsOk (o : OperandRegs) : Prop :=
  0 < o.width.toNat ∧ 0 < o.height.toNat ∧ o.height.toNat * (3 * o.width.toNat + 1) ≤ 0xFFFFFFFF

/-- R126: the dimensions RGB takes. -/
def PixelDimsOk (o : OperandRegs) : Prop :=
  0 < o.width.toNat ∧ 0 < o.height.toNat ∧ 4 * o.width.toNat * o.height.toNat ≤ 0xFFFFFFFF

/-- The declared source holds `n` bytes, source and destination lie in buffer memory, and they do not
overlap (R44, R45). -/
def BuffersOk (size : Nat) (o : OperandRegs) (n : Nat) : Prop :=
  n ≤ o.srcLen.toNat ∧ RegionInRange size o.srcAddr n ∧
    RegionInRange size o.dstAddr o.dstCap.toNat ∧
    ¬ RegionsOverlap o.srcAddr n o.dstAddr o.dstCap.toNat

/-- The operands with which FILT, FCOMP and ENCPNG pass their dimension and memory checks, FILT's
capacity check apart (R103, R109, R113). -/
def ImageOperandsOk (s : State) : Prop :=
  ImageDimsOk s.lat.ops ∧
    BuffersOk s.cfg.memSize s.lat.ops (3 * s.lat.ops.width.toNat * s.lat.ops.height.toNat)

/-- The operands with which RGB passes its checks (R126). -/
def PixelOperandsOk (s : State) : Prop :=
  PixelDimsOk s.lat.ops ∧ s.lat.ops.srcAddr.toNat % 4 = 0 ∧
    BuffersOk s.cfg.memSize s.lat.ops (4 * s.lat.ops.width.toNat * s.lat.ops.height.toNat) ∧
    3 * (s.lat.ops.width.toNat * s.lat.ops.height.toNat) ≤ s.lat.ops.dstCap.toNat

/-- The RGB image of FILT, FCOMP and ENCPNG, as it stands in buffer memory at the latched source. -/
def SourceImage (s : State) (rgb : Bytes) : Prop :=
  s.mem.readBytes s.lat.ops.srcAddr.toNat
    (3 * s.lat.ops.width.toNat * s.lat.ops.height.toNat) = some rgb

/-! Invariants. -/

/-- Buffer memory is in its canonical form, and lists no address it does not have (R43). -/
def MemoryInv (s : State) : Prop :=
  s.mem.wf ∧ ∀ c ∈ s.mem, c.1 < s.cfg.memSize

/-- A valid table holds TblEntry(n) at every index (R32, R77). -/
def TableInv (s : State) : Prop :=
  s.tblValid = true → s.tbl = builtTable

/-- What the completion bits, the error code, ERRINFO and the phase say together (R17, R18, R33, R73,
R130, R131). -/
def StatusInv (s : State) : Prop :=
  (s.busy = true → s.done = false ∧ s.err = false ∧ s.phase ≠ .idle) ∧
  s.err = s.errCode.isSome ∧
  (s.err = true → s.done = true ∧ s.phase ≠ .idle) ∧
  (s.busy = false → s.err = false → s.phase = .idle) ∧
  (s.err = false → s.errInfo = 0) ∧
  (s.ovr = true → s.busy = true ∨ s.done = true)

/-- While the stream is open OUT_COUNT is its length modulo 2^32 (R28). -/
def StreamInv (s : State) : Prop :=
  s.strmOpen = true → s.outCount = BitVec.ofNat 32 s.out.length

/-- The signature and the IHDR chunk of the latched dimensions (R112). -/
def fileHead (o : OperandRegs) : Bytes :=
  signature ++ chunkBytes builtTable tagIhdr (ihdrPayload o.width o.height)

/-- `z` is the compressed image at the latched destination: Deflate gave it for the filtered source,
it fits the destination, stands there, and ZLEN is its length (R117). -/
def Payload (s : State) (z : Bytes) : Prop :=
  (∃ rgb, SourceImage s rgb ∧
    deflate s.cfg.compressor (filtered rgb s.lat.ops.width.toNat s.lat.ops.height.toNat) = some z) ∧
  z.length ≤ s.lat.ops.dstCap.toNat ∧
  s.mem.readBytes s.lat.ops.dstAddr.toNat z.length = some z ∧
  s.zlen = BitVec.ofNat 32 z.length

/-- What a running ENCPNG has done when it stands before each phase (R114 to R120). -/
def EncodingProgress (s : State) : Prop :=
  match s.phase with
  | .idle => False
  | .exec => True
  | .opening => s.strmOpen = false
  | .sig => s.strmOpen = true ∧ s.out = []
  | .ihdr => s.strmOpen = true ∧ s.out = signature
  | .compress => s.strmOpen = true ∧ s.tblValid = true ∧ s.out = fileHead s.lat.ops
  | .idat => s.strmOpen = true ∧ s.tblValid = true ∧ s.out = fileHead s.lat.ops ∧ ∃ z, Payload s z
  | .iend => s.strmOpen = true ∧ s.tblValid = true ∧
      ∃ z, Payload s z ∧ s.out = fileHead s.lat.ops ++ chunkBytes builtTable tagIdat z
  | .closing => s.strmOpen = true ∧ s.tblValid = true ∧
      ∃ z, Payload s z ∧ s.out = pngFile builtTable s.lat.ops.width s.lat.ops.height z

/-- The running command: one phase for every command but ENCPNG, and ENCPNG past its EXEC step has
passed its checks and stands where its phase says (R33, R75, R113). -/
def SequencerInv (s : State) : Prop :=
  s.busy = true → s.phase ≠ .exec →
    decode s.lat.cmd = .ok (.encpng 0) ∧ ImageOperandsOk s ∧ EncodingProgress s

/-- The invariant of the machine. -/
def Inv (s : State) : Prop :=
  MemoryInv s ∧ TableInv s ∧ StatusInv s ∧ StreamInv s ∧ SequencerInv s

/-! Ends of commands. -/

/-- The observable result of a command (R142). -/
structure CompletionRecord where
  status : Word
  errInfo : Word
  result : Word
  outCount : Word
  out : Bytes
  dest : List (Option Byte)
  tblValid : Bool
deriving DecidableEq, Repr

/-- The bytes of a region, `none` where one is unwritten. -/
def regionBytes (m : Memory) (r : Region) : List (Option Byte) :=
  (List.range r.size).map fun k => m.read (r.start.toNat + k)

/-- The completion record a Host can take of a state (R142). -/
def completionRecord (s : State) : CompletionRecord :=
  { status := statusWord s
    errInfo := s.errInfo
    result := s.result
    outCount := s.outCount
    out := s.out
    dest := regionBytes s.mem (runningDest s)
    tblValid := s.tblValid }

/-- The pre-check errors of R133: raised before a command's first effect. LENGTH is one except in
ENCPNG's IDAT phase, and ILLEGAL_CMD is raised by the decoder. -/
def DevError.isPreCheck : DevError → Bool
  | .illegalCmd => true
  | .illegalFilter => true
  | .badDim => true
  | .length => true
  | .misaligned => true
  | .memory => true
  | .overlap => true
  | .streamState => true
  | .ioOpen => false
  | .ioWrite => false
  | .compression => false

/-- A run of `k` steps from a state, stopping at the first fault or refusal. -/
def runSteps (k : Nat) (s : State) : Host.Outcome State Fault Refusal := core.run k s

end Sys2Proof.Machine
end

