-- ==== Sys2Proof/Certificates/Slice0/Obligations.lean ====
section
/-! DEFINITION. The statements for the provers, in the order of the spec's files. A statement about the
Engine speaks of `exec`, one about the Host or about a turn of `step`. A next state that is written out
in full also says that ZLEN stays; outside a running ENCPNG, where R36 leaves it unspecified, that is the
model's choice and no rule's (notes/assumptions/27.md). -/

open Sys2Proof Sys2Proof.Machine

/-! State (10_state.md) and reset (70_reset_and_hazards.md). -/

/-- R40, R41: the machine at power-on. The latches, TBL and ZLEN are unspecified there and not spoken
of. -/
def Obligations.PowerOnStateIsIdle : Prop :=
  let s := State.reset
  statusWord s = 0 ∧ s.phase = .idle ∧ s.errInfo = 0 ∧ s.ops = ⟨0, 0, 0, 0, 0, 0, 0, 0⟩ ∧ s.result = 0 ∧
    s.outCount = 0 ∧ s.strmOpen = false ∧ s.out = [] ∧ (∀ a, s.mem.read a = none) ∧
    (∀ off, readRegister (registerIndex off) s = 0)

/-- R17, R33, R128: the fields of STATUS, and the numbers of the phases and of the error codes. -/
def Obligations.StatusWordHasTheFieldsOfR17 : Prop :=
  (∀ s : State, (statusWord s).toNat =
    s.busy.toNat + 2 * s.done.toNat + 4 * s.err.toNat + 8 * s.ovr.toNat +
      16 * (errCodeField s.errCode).toNat + 256 * s.tblValid.toNat + 512 * s.strmOpen.toNat +
      4096 * s.phase.code.toNat) ∧
  [Phase.idle, .exec, .opening, .sig, .ihdr, .compress, .idat, .iend, .closing].map Phase.code =
    [0, 1, 2, 3, 4, 5, 6, 7, 8] ∧
  [none, some DevError.illegalCmd, some .illegalFilter, some .badDim, some .length,
    some .misaligned, some .memory, some .overlap, some .streamState, some .ioOpen, some .ioWrite,
    some .compression].map errCodeField =
    [0x0, 0x1, 0x2, 0x3, 0x4, 0x5, 0x6, 0x7, 0x8, 0x9, 0xA, 0xB]

/-- R15, R16, R29: what a whole-word read of each register returns; CMD and the reserved registers read
0, and a read changes nothing but what the Host has read. -/
def Obligations.RegisterReadsReturnTheRegisters : Prop :=
  ∀ (s : State) (off : BitVec 8) (rest : List Turn),
    s.script = .host (.rd .word off) :: rest → off.toNat % 4 = 0 →
    step s = .next { s with
      script := rest
      rdata := ([0, statusWord s, s.errInfo, s.ops.seed, s.ops.srcAddr, s.ops.srcLen, s.ops.dstAddr,
        s.ops.dstCap, s.ops.width, s.ops.height, s.ops.chunkType, s.result,
        s.outCount][off.toNat / 4]?).getD 0 }

/-- R29, R30: a write to an operand register takes effect at once and never touches the latches; a write
to a read-only or a reserved register changes nothing. -/
def Obligations.RegisterWritesReachOnlyTheOperands : Prop :=
  ∀ (s : State) (off : BitVec 8) (v : Word) (rest : List Turn),
    s.script = .host (.wr .word off v) :: rest → off.toNat % 4 = 0 → off ≠ 0 →
    step s = .next { s with
      script := rest
      ops :=
        { seed := if off = 0x0C then v else s.ops.seed
          srcAddr := if off = 0x10 then v else s.ops.srcAddr
          srcLen := if off = 0x14 then v else s.ops.srcLen
          dstAddr := if off = 0x18 then v else s.ops.dstAddr
          dstCap := if off = 0x1C then v else s.ops.dstCap
          width := if off = 0x20 then v else s.ops.width
          height := if off = 0x24 then v else s.ops.height
          chunkType := if off = 0x28 then v else s.ops.chunkType } }

/-- R148, R149: RESET in one step, at any point between two Engine steps. The latches, TBL and ZLEN become
some value or other. -/
def Obligations.ResetClearsTheDeviceAndKeepsOutAndMem : Prop :=
  ∀ (s : State) (rest : List Turn), s.script = .host .reset :: rest →
    ∃ (l : Latches) (t : Vector Word 256) (z : Word),
      step s = .next { s with
        script := rest
        ops := ⟨0, 0, 0, 0, 0, 0, 0, 0⟩
        lat := l
        busy := false
        done := false
        err := false
        ovr := false
        errCode := none
        tblValid := false
        strmOpen := false
        phase := .idle
        errInfo := 0
        result := 0
        outCount := 0
        tbl := t
        zlen := z
        draws := s.draws + 1 }

/-! Memory (20_memory.md). -/

/-- R43, R70: the Host reads and writes buffer memory a byte at a time. The address must exist and no
command run. A byte reads as it was last written; the read of a byte never written answers some byte, not
spoken of (notes/assumptions/12.md). -/
def Obligations.HostMemoryAccessIsPerByte : Prop :=
  ∀ (s : State) (a : Word) (rest : List Turn), s.busy = false → a.toNat < s.cfg.memSize →
    (∀ b, s.script = .host (.mwr a b) :: rest →
      ∃ m, step s = .next { s with script := rest, mem := m } ∧
        m.read a.toNat = some b ∧ ∀ c, c ≠ a.toNat → m.read c = s.mem.read c) ∧
    (s.script = .host (.mrd a) :: rest →
      ∃ b : Byte, step s = .next { s with script := rest, rdata := b.setWidth 32 } ∧
        ∀ c, s.mem.read a.toNat = some c → b = c)

/-- R47, R70: what the model refuses: an access to the window that is not a whole aligned word, and an
access to buffer memory at an address that does not exist. -/
def Obligations.BadHostAccessesAreRefused : Prop :=
  ∀ (s : State) (rest : List Turn),
    (∀ width off, width ≠ .word ∨ off.toNat % 4 ≠ 0 →
      (s.script = .host (.rd width off) :: rest → step s = .refused .refusedAccess) ∧
      (∀ v, s.script = .host (.wr width off v) :: rest → step s = .refused .refusedAccess)) ∧
    (∀ a : Word, s.cfg.memSize ≤ a.toNat →
      (s.script = .host (.mrd a) :: rest → step s = .refused .refusedAccess) ∧
      (∀ b, s.script = .host (.mwr a b) :: rest → step s = .refused .refusedAccess))

/-- R55: while a command runs, a Host write to a byte it reads or writes and a Host read of a byte it
writes are the model fault HOST_RACE, and the other accesses to existing bytes are ordinary. The regions
are those each command's rule lists. An illegal word at its EXEC step, and a command whose filter type is
illegal, have none, so every access beside them is ordinary: the model's reading
(notes/assumptions/16.md). -/
def Obligations.HostAccessToARunningCommandsRegionsIsARace : Prop :=
  ∀ (s : State) (a : Word) (rest : List Turn), s.busy = true → a.toNat < s.cfg.memSize →
    let o := s.lat.ops
    let runs := fun i : Instr => decode s.lat.cmd = .ok i
    let image := runs (.filt 0) ∨ runs (.fcomp 0) ∨ runs (.encpng 0)
    let source :=
      ((runs .crc ∨ runs .wchunk) ∧ o.srcAddr.toNat ≤ a.toNat ∧
        a.toNat < o.srcAddr.toNat + o.srcLen.toNat) ∨
      (image ∧ o.srcAddr.toNat ≤ a.toNat ∧
        a.toNat < o.srcAddr.toNat + 3 * o.width.toNat * o.height.toNat) ∨
      (runs .rgb ∧ o.srcAddr.toNat ≤ a.toNat ∧
        a.toNat < o.srcAddr.toNat + 4 * (o.width.toNat * o.height.toNat))
    let dest := (image ∨ runs .rgb) ∧ o.dstAddr.toNat ≤ a.toNat ∧
      a.toNat < o.dstAddr.toNat + o.dstCap.toNat
    (∀ b, s.script = .host (.mwr a b) :: rest →
      (source ∨ dest → step s = .fault .hostRace) ∧
      (¬ (source ∨ dest) →
        step s = .next { s with script := rest, mem := s.mem.write a.toNat b })) ∧
    (s.script = .host (.mrd a) :: rest →
      (dest → step s = .fault .hostRace) ∧
      (¬ dest → ∃ b : Byte, step s = .next { s with script := rest, rdata := b.setWidth 32 } ∧
        ∀ c, s.mem.read a.toNat = some c → b = c))

/-! Encoding, acceptance and dispatch (30_encoding.md). -/

/-- R65, R66, R63: the EXEC step decodes the latched word by the tests of R65 in their order: an illegal
word ends in ILLEGAL_CMD with the whole word, a filter type other than 0 in ILLEGAL_FILTER with the field,
and any other word runs the operation of R62. -/
def Obligations.ExecStepDecodesByTheTestsOfR65 : Prop :=
  ∀ s : State, s.phase = .exec →
    let w := s.lat.cmd.toNat
    let op := w % 256
    let ft := w / 256 % 8
    let rsv := w / 2048
    (rsv ≠ 0 ∨ op = 0 ∨ 0x0B ≤ op ∨ (op ≠ 7 ∧ op ≠ 8 ∧ op ≠ 9 ∧ ft ≠ 0) →
      engineStep s = .next { s with
        err := true, errCode := some .illegalCmd, errInfo := s.lat.cmd, busy := false, done := true }) ∧
    (rsv = 0 → op = 7 ∨ op = 8 ∨ op = 9 → ft ≠ 0 →
      engineStep s = .next { s with
        err := true, errCode := some .illegalFilter, errInfo := BitVec.ofNat 32 ft
        busy := false, done := true }) ∧
    (rsv = 0 → ft = 0 →
      (op = 0x01 → engineStep s = exec .tblinit s) ∧ (op = 0x02 → engineStep s = exec .crc s) ∧
      (op = 0x03 → engineStep s = exec .sopen s) ∧ (op = 0x04 → engineStep s = exec .sclose s) ∧
      (op = 0x05 → engineStep s = exec .wsig s) ∧ (op = 0x06 → engineStep s = exec .wchunk s) ∧
      (op = 0x07 → engineStep s = exec (.filt 0) s) ∧ (op = 0x08 → engineStep s = exec (.fcomp 0) s) ∧
      (op = 0x09 → engineStep s = exec (.encpng 0) s) ∧ (op = 0x0A → engineStep s = exec .rgb s))

/-- Decoding and encoding agree, both ways: no bit of a command word is dropped. -/
def Obligations.DecodeAndEncodeAgree : Prop :=
  (∀ i : Instr, decode (encode i) = .ok i) ∧ (∀ (w : Word) (i : Instr), decode w = .ok i → encode i = w)

/-- The decoder accepts exactly the words of the opcode table's rows, and no word is in two rows. -/
def Obligations.DecoderAcceptsExactlyTheTableRows : Prop :=
  ∀ w : Word, ((∃ i, decode w = .ok i) ↔ ∃ r ∈ opcodeTable, r.holds w = true) ∧
    opcodeTable.Pairwise (fun p q => ¬ (p.holds w = true ∧ q.holds w = true))

/-- Words written out from R61 and R62 decode to what they stand for. -/
def Obligations.WordsOfTheEncodingDecode : Prop :=
  decode 0b00000000000000000000000000000001 = .ok .tblinit ∧
  decode 0b00000000000000000000000000000010 = .ok .crc ∧
  decode 0b00000000000000000000000000000110 = .ok .wchunk ∧
  decode 0b00000000000000000000000000000111 = .ok (.filt 0) ∧
  decode 0b00000000000000000000010100001001 = .ok (.encpng 5) ∧
  decode 0b00000000000000000000000000001010 = .ok .rgb ∧
  decode 0b00000000000000000000000000000000 = .error .noSuchOperation ∧
  decode 0b00000000000000000000100000000001 = .error .reservedBits ∧
  decode 0b00000000000000000000011100000001 = .error .filterOnPlainOperation

/-- R75: while BUSY = 1, a step that is the Engine's turn is `exec` of the command the latched word
decodes to, with the turn taken from the queue. -/
def Obligations.EngineTurnRunsTheDecodedCommand : Prop :=
  ∀ (s : State) (i : Instr), s.busy = true → (∀ t, s.script.head? ≠ some (.host t)) →
    decode s.lat.cmd = .ok i → step s = exec i { s with script := s.script.tail }

/-- A command word placed as the next one to run is what the next step runs, in the state acceptance
leaves. -/
def Obligations.FetchedWordIsRunByTheNextStep : Prop :=
  ∀ (s : State) (nbits w : Nat) (i : Instr), decodeTableWord nbits w = some i →
    step (s.withFetchWord nbits w) = exec i (accept (BitVec.ofNat 32 (w % 2 ^ nbits)) s)

/-- R73: acceptance of a command word. -/
def Obligations.CommandWrittenWhileIdleIsAccepted : Prop :=
  ∀ (s : State) (v : Word) (rest : List Turn),
    s.busy = false → s.script = .host (.wr .word 0 v) :: rest →
    step s = .next { s with
      script := rest
      lat := { cmd := v, ops := s.ops }
      busy := true
      done := false
      err := false
      ovr := false
      errCode := none
      errInfo := 0
      phase := .exec }

/-- R74: a command word written while a command runs is dropped. -/
def Obligations.CommandWrittenWhileBusyIsDropped : Prop :=
  ∀ (s : State) (v : Word) (rest : List Turn),
    s.busy = true → s.script = .host (.wr .word 0 v) :: rest →
    step s = .next { s with script := rest, ovr := true }

/-! CRC32 engine (40_crc32.md). -/

/-- R77, R81: TBLINIT completes, with the table built if it was not valid, and changes nothing else. -/
def Obligations.TblinitBuildsTheTable : Prop :=
  (∀ s : State, exec .tblinit s = .next { s with
    tbl := if s.tblValid then s.tbl else builtTable
    tblValid := true
    busy := false
    done := true
    phase := .idle }) ∧
  ∀ n : Byte, builtTable.get n.toFin = tblEntry n

/-- R82: CRC completes with the checksum of the region, and changes nothing else. A region of no bytes
gives the seed back wherever it lies. -/
def Obligations.CrcGivesTheChecksumOfTheRegion : Prop :=
  ∀ (s : State) (data : Bytes), TableInv s →
    RegionInRange s.cfg.memSize s.lat.ops.srcAddr s.lat.ops.srcLen.toNat →
    s.mem.readBytes s.lat.ops.srcAddr.toNat s.lat.ops.srcLen.toNat = some data →
    exec .crc s = .next { s with
      tbl := builtTable
      tblValid := true
      result := crc32 builtTable s.lat.ops.seed data
      busy := false
      done := true
      phase := .idle } ∧
    (s.lat.ops.srcLen = 0 → crc32 builtTable s.lat.ops.seed data = s.lat.ops.seed)

/-- R43, R44, R82: CRC of a region out of range is MEMORY with its start and no other effect. R43: a
command whose checks pass and whose region to read has an unwritten byte is the model fault UNINIT_READ:
CRC and WCHUNK of their payload, FILT, FCOMP and ENCPNG's COMPRESS phase of their image, RGB of its pixel
words, and ENCPNG's IDAT phase of the payload at DST. -/
def Obligations.BadReadRegionsStop : Prop :=
  ∀ s : State,
    let o := s.lat.ops
    let unwritten := fun (a : Word) (n : Nat) => ∃ k, k < n ∧ s.mem.read (a.toNat + k) = none
    (¬ RegionInRange s.cfg.memSize o.srcAddr o.srcLen.toNat →
      exec .crc s = .next { s with
        err := true, errCode := some .memory, errInfo := o.srcAddr, busy := false, done := true }) ∧
    (RegionInRange s.cfg.memSize o.srcAddr o.srcLen.toNat → unwritten o.srcAddr o.srcLen.toNat →
      exec .crc s = .fault .uninitRead ∧
      (o.srcLen.toNat ≤ 0x7FFFFFFF → s.strmOpen = true → exec .wchunk s = .fault .uninitRead)) ∧
    (ImageOperandsOk s → unwritten o.srcAddr (3 * o.width.toNat * o.height.toNat) →
      (o.height.toNat * (3 * o.width.toNat + 1) ≤ o.dstCap.toNat →
        exec (.filt 0) s = .fault .uninitRead) ∧
      exec (.fcomp 0) s = .fault .uninitRead ∧
      (s.phase = .compress → exec (.encpng 0) s = .fault .uninitRead)) ∧
    (PixelOperandsOk s → unwritten o.srcAddr (4 * (o.width.toNat * o.height.toNat)) →
      exec .rgb s = .fault .uninitRead) ∧
    (s.phase = .idat → s.zlen.toNat ≤ 0x7FFFFFFF →
      RegionInRange s.cfg.memSize o.dstAddr s.zlen.toNat → unwritten o.dstAddr s.zlen.toNat →
      exec (.encpng 0) s = .fault .uninitRead)

/-- R80: the laws of the checksum: empty data gives the seed, checksums chain, the result does not depend
on how the table was built, and the reference value. -/
def Obligations.ChecksumLaws : Prop :=
  (∀ seed, crc32 builtTable seed [] = seed) ∧
  (∀ seed a b, crc32 builtTable (crc32 builtTable seed a) b = crc32 builtTable seed (a ++ b)) ∧
  (∀ s seed data, TableInv s →
    crc32 (ensureTable s).tbl seed data = crc32 builtTable seed data) ∧
  crc32 builtTable 0 [0x31, 0x32, 0x33, 0x34, 0x35, 0x36, 0x37, 0x38, 0x39] = 0xCBF43926

/-- R83: the checksum over the built table is the one computed with TblEntry in place of the table. -/
def Obligations.ChecksumNeedsNoStoredTable : Prop :=
  ∀ (seed : Word) (data : Bytes),
    crc32 builtTable seed data =
      data.foldl (fun (c : Word) (b : Byte) => tblEntry ((c ^^^ b.setWidth 32).setWidth 8) ^^^ (c >>> 8))
        (seed ^^^ (0xFFFFFFFF : Word)) ^^^ (0xFFFFFFFF : Word)

/-! Chunk writer (41_chunk_writer.md). -/

/-- R85, R93: SOPEN with a sink that succeeds. -/
def Obligations.SopenOpensTheStream : Prop :=
  ∀ s : State, s.strmOpen = false → openAnswer s = .success →
    exec .sopen s = .next { takeOpen s with
      out := [], strmOpen := true, outCount := 0, busy := false, done := true, phase := .idle }

/-- R85, R87, R93: SOPEN with the stream already open, and with a sink that refuses. -/
def Obligations.SopenErrors : Prop :=
  ∀ s : State,
    (s.strmOpen = true → exec .sopen s = .next { s with
      err := true, errCode := some .streamState, errInfo := 1, busy := false, done := true }) ∧
    (∀ truncated, s.strmOpen = false → openAnswer s = .failure truncated →
      exec .sopen s = .next { takeOpen s with
        out := if truncated then [] else s.out
        err := true, errCode := some .ioOpen, errInfo := 0, busy := false, done := true })

/-- R86, R87, R94: SCLOSE. -/
def Obligations.ScloseClosesTheStream : Prop :=
  ∀ s : State,
    (s.strmOpen = true → exec .sclose s = .next { s with
      strmOpen := false, busy := false, done := true, phase := .idle }) ∧
    (s.strmOpen = false → exec .sclose s = .next { s with
      err := true, errCode := some .streamState, errInfo := 0, busy := false, done := true })

/-- R87, R88, R89, R95: WSIG with the stream closed is STREAM_STATE(0) and nothing else; with the stream
open it appends the signature, or lands a prefix and ends in IO_WRITE. -/
def Obligations.WsigAppendsTheSignature : Prop :=
  ∀ s : State,
    (s.strmOpen = false → exec .wsig s = .next (raise .streamState 0 s)) ∧
    (s.strmOpen = true →
      (writeAnswer s = .success → exec .wsig s = .next { takeWrite s with
        out := s.out ++ [0x89, 0x50, 0x4E, 0x47, 0x0D, 0x0A, 0x1A, 0x0A]
        outCount := s.outCount + 8
        busy := false, done := true, phase := .idle }) ∧
      (∀ k, writeAnswer s = .failure k → exec .wsig s = .next { takeWrite s with
        out := s.out ++ [0x89, 0x50, 0x4E, 0x47, 0x0D, 0x0A, 0x1A, 0x0A].take k
        outCount := s.outCount + BitVec.ofNat 32 (min k 8)
        err := true, errCode := some .ioWrite
        errInfo := s.outCount + BitVec.ofNat 32 (min k 8)
        busy := false, done := true }))

/-- R90, R91, R96, R98: WCHUNK appends length, type, payload and CRC, most significant bytes first, and
gives the CRC. -/
def Obligations.WchunkAppendsTheChunk : Prop :=
  ∀ (s : State) (p : Bytes), TableInv s → s.strmOpen = true →
    s.lat.ops.srcLen.toNat ≤ 0x7FFFFFFF →
    RegionInRange s.cfg.memSize s.lat.ops.srcAddr s.lat.ops.srcLen.toNat →
    s.mem.readBytes s.lat.ops.srcAddr.toNat s.lat.ops.srcLen.toNat = some p →
    writeAnswer s = .success →
    let t := be32 s.lat.ops.chunkType
    exec .wchunk s = .next { takeWrite s with
      tbl := builtTable
      tblValid := true
      out := s.out ++ (be32 s.lat.ops.srcLen ++ t ++ p ++ be32 (crc32 builtTable 0 (t ++ p)))
      outCount := s.outCount + BitVec.ofNat 32 (12 + s.lat.ops.srcLen.toNat)
      result := crc32 builtTable 0 (t ++ p)
      busy := false
      done := true
      phase := .idle }

/-- R92, R96: the errors of WCHUNK before its first effect, in their order: LENGTH, MEMORY,
STREAM_STATE. -/
def Obligations.WchunkPreCheckErrors : Prop :=
  ∀ s : State,
    let o := s.lat.ops
    (0x7FFFFFFF < o.srcLen.toNat → exec .wchunk s = .next (raise .length o.srcLen s)) ∧
    (o.srcLen.toNat ≤ 0x7FFFFFFF → ¬ RegionInRange s.cfg.memSize o.srcAddr o.srcLen.toNat →
      exec .wchunk s = .next (raise .memory o.srcAddr s)) ∧
    (o.srcLen.toNat ≤ 0x7FFFFFFF → RegionInRange s.cfg.memSize o.srcAddr o.srcLen.toNat →
      s.strmOpen = false → exec .wchunk s = .next (raise .streamState 0 s))

/-- R88, R96: WCHUNK with a sink that fails after `k` bytes: the prefix lands, OUT_COUNT counts it and is
ERRINFO, the table has been built and RESULT stays. -/
def Obligations.WchunkWriteFailureLandsAPrefix : Prop :=
  ∀ (s : State) (p : Bytes) (k : Nat), TableInv s → s.strmOpen = true →
    s.lat.ops.srcLen.toNat ≤ 0x7FFFFFFF →
    RegionInRange s.cfg.memSize s.lat.ops.srcAddr s.lat.ops.srcLen.toNat →
    s.mem.readBytes s.lat.ops.srcAddr.toNat s.lat.ops.srcLen.toNat = some p →
    writeAnswer s = .failure k →
    let t := be32 s.lat.ops.chunkType
    let chunk := be32 s.lat.ops.srcLen ++ t ++ p ++ be32 (crc32 builtTable 0 (t ++ p))
    let landed := BitVec.ofNat 32 (min k (12 + s.lat.ops.srcLen.toNat))
    exec .wchunk s = .next { takeWrite s with
      tbl := builtTable
      tblValid := true
      out := s.out ++ chunk.take k
      outCount := s.outCount + landed
      err := true
      errCode := some .ioWrite
      errInfo := s.outCount + landed
      busy := false
      done := true }

/-! Scanline filter and compressor (42_filter_compress.md). -/

/-- R102: every byte of the filtered scanlines. -/
def Obligations.FilteredScanlineBytes : Prop :=
  ∀ (rgb : Bytes) (w h : Nat), rgb.length = 3 * w * h →
    (filtered rgb w h).length = h * (3 * w + 1) ∧
    ∀ k, k < h * (3 * w + 1) →
      (filtered rgb w h)[k]? =
        if k % (3 * w + 1) = 0 then some 0x00
        else rgb[k / (3 * w + 1) * (3 * w) + k % (3 * w + 1) - 1]?

/-- R103: FILT writes the filtered scanlines at DST and gives their size; the bytes written are the first
F of the destination, and every other byte of memory stays. -/
def Obligations.FiltWritesTheFilteredScanlines : Prop :=
  ∀ (s : State) (rgb : Bytes), ImageOperandsOk s →
    s.lat.ops.height.toNat * (3 * s.lat.ops.width.toNat + 1) ≤ s.lat.ops.dstCap.toNat →
    SourceImage s rgb →
    let x := filtered rgb s.lat.ops.width.toNat s.lat.ops.height.toNat
    let f := s.lat.ops.height.toNat * (3 * s.lat.ops.width.toNat + 1)
    ∃ m, exec (.filt 0) s = .next { s with
        mem := m, result := BitVec.ofNat 32 f, busy := false, done := true, phase := .idle } ∧
      m.readBytes s.lat.ops.dstAddr.toNat f = some x ∧
      ∀ a, (a < s.lat.ops.dstAddr.toNat ∨ s.lat.ops.dstAddr.toNat + f ≤ a) →
        m.read a = s.mem.read a

/-- R99, R103, R109, R113, R132: the errors of FILT, FCOMP and ENCPNG's EXEC step, in their order. -/
def Obligations.ImageCommandErrorsInOrder : Prop :=
  ∀ (s : State) (i : Instr) (ft : BitVec 3),
    i = .filt ft ∨ i = .fcomp ft ∨ (i = .encpng ft ∧ s.phase = .exec) →
    let o := s.lat.ops
    let n := 3 * o.width.toNat * o.height.toNat
    let f := o.height.toNat * (3 * o.width.toNat + 1)
    (ft ≠ 0 → exec i s = .next (raise .illegalFilter (ft.setWidth 32) s)) ∧
    (ft = 0 → ¬ ImageDimsOk o → exec i s = .next (raise .badDim 0 s)) ∧
    (ft = 0 → ImageDimsOk o → o.srcLen.toNat < n → exec i s = .next (raise .memory o.srcAddr s)) ∧
    (ft = 0 → ImageDimsOk o → n ≤ o.srcLen.toNat → ¬ RegionInRange s.cfg.memSize o.srcAddr n →
      exec i s = .next (raise .memory o.srcAddr s)) ∧
    (ft = 0 → ImageDimsOk o → n ≤ o.srcLen.toNat → RegionInRange s.cfg.memSize o.srcAddr n →
      ¬ RegionInRange s.cfg.memSize o.dstAddr o.dstCap.toNat →
      exec i s = .next (raise .memory o.dstAddr s)) ∧
    (ft = 0 → ImageDimsOk o → n ≤ o.srcLen.toNat → RegionInRange s.cfg.memSize o.srcAddr n →
      RegionInRange s.cfg.memSize o.dstAddr o.dstCap.toNat → i = .filt 0 → o.dstCap.toNat < f →
      exec i s = .next (raise .memory o.dstAddr s)) ∧
    (ft = 0 → ImageDimsOk o → n ≤ o.srcLen.toNat → RegionInRange s.cfg.memSize o.srcAddr n →
      RegionInRange s.cfg.memSize o.dstAddr o.dstCap.toNat → (i = .filt 0 → f ≤ o.dstCap.toNat) →
      RegionsOverlap o.srcAddr n o.dstAddr o.dstCap.toNat →
      exec i s = .next (raise .overlap o.dstAddr s)) ∧
    (ft = 0 → ImageOperandsOk s → i = .encpng 0 → s.strmOpen = true →
      exec i s = .next (raise .streamState 1 s))

/-- R106, R109: FCOMP writes the compressed image at DST and gives its size, whatever admissible Deflate
the machine has. -/
def Obligations.FcompWritesTheCompressedImage : Prop :=
  ∀ (s : State) (rgb z : Bytes), ImageOperandsOk s → SourceImage s rgb →
    deflate s.cfg.compressor (filtered rgb s.lat.ops.width.toNat s.lat.ops.height.toNat) = some z →
    z.length ≤ s.lat.ops.dstCap.toNat →
    ∃ m, exec (.fcomp 0) s = .next { s with
        mem := m, result := BitVec.ofNat 32 z.length, busy := false, done := true, phase := .idle } ∧
      m.readBytes s.lat.ops.dstAddr.toNat z.length = some z ∧
      ∀ a, (a < s.lat.ops.dstAddr.toNat ∨ s.lat.ops.dstAddr.toNat + z.length ≤ a) →
        m.read a = s.mem.read a

/-- R106, R110: FCOMP and ENCPNG's phase 5 when Deflate gives none or more bytes than fit: COMPRESSION,
every byte of the destination region written with some value, and every other byte unchanged. -/
def Obligations.CompressionErrorScramblesTheDestination : Prop :=
  ∀ (s : State) (rgb : Bytes) (i : Instr), ImageOperandsOk s → SourceImage s rgb →
    i = .fcomp 0 ∨ (i = .encpng 0 ∧ s.phase = .compress) →
    let o := s.lat.ops
    let r := deflate s.cfg.compressor (filtered rgb o.width.toNat o.height.toNat)
    (∀ z, r = some z → o.dstCap.toNat < z.length) →
    ∃ m, exec i s = .next { s with
        mem := m
        draws := s.draws + 1
        err := true
        errCode := some .compression
        errInfo := (r.map fun z => BitVec.ofNat 32 (min z.length 0xFFFFFFFF)).getD 0
        busy := false
        done := true } ∧
      (∀ a, o.dstAddr.toNat ≤ a → a < o.dstAddr.toNat + o.dstCap.toNat → (m.read a).isSome = true) ∧
      (∀ a, (a < o.dstAddr.toNat ∨ o.dstAddr.toNat + o.dstCap.toNat ≤ a) → m.read a = s.mem.read a)

/-- R107 property 2: whatever Deflate gives for `x` is a zlib stream of `x`, for the hardware's compressor
and for the reference. That a body decompresses to `x` is said with the decompression of RFC 1951, the
model's reading of "the DEFLATE format" (notes/assumptions/5.md). -/
def Obligations.DeflateGivesAZlibStreamOfItsInput : Prop :=
  ∀ (c : Compressor) (x z : Bytes), deflate c x = some z → isZlibStreamOf x z = true

/-- R108: the length of the reference compressor's output, which it always gives. -/
def Obligations.ReferenceCompressorLength : Prop :=
  ∀ x : Bytes, ∃ z, deflate .reference x = some z ∧
    z.length = 6 + x.length + 5 * max 1 ((x.length + 65534) / 65535)

/-! PNG encoder (43_png_encoder.md). -/

/-- R113, R114: ENCPNG's EXEC step with its checks passed, and the OPEN phase. -/
def Obligations.EncpngStartsAndOpensTheStream : Prop :=
  (∀ s : State, s.phase = .exec → ImageOperandsOk s → s.strmOpen = false →
    exec (.encpng 0) s = .next { s with phase := .opening }) ∧
  (∀ s : State, s.phase = .opening →
    (openAnswer s = .success → exec (.encpng 0) s = .next { takeOpen s with
      out := [], strmOpen := true, outCount := 0, phase := .sig }) ∧
    (∀ truncated, openAnswer s = .failure truncated → exec (.encpng 0) s = .next { takeOpen s with
      out := if truncated then [] else s.out
      err := true, errCode := some .ioOpen, errInfo := 0, busy := false, done := true }))

/-- R88, R115, R116, R119: the phases SIG, IHDR and IEND append their bytes and go on, or land a prefix
and end in IO_WRITE with the phase kept. -/
def Obligations.EncpngAppendsSignatureIhdrAndIend : Prop :=
  ∀ (s : State) (bytes : Bytes) (next : Phase), TableInv s →
    (s.phase = .sig ∧ next = .ihdr ∧ bytes = signature) ∨
    (s.phase = .ihdr ∧ next = .compress ∧
      bytes = chunkBytes builtTable tagIhdr (ihdrPayload s.lat.ops.width s.lat.ops.height)) ∨
    (s.phase = .iend ∧ s.tblValid = true ∧ next = .closing ∧
      bytes = [0x00, 0x00, 0x00, 0x00, 0x49, 0x45, 0x4E, 0x44, 0xAE, 0x42, 0x60, 0x82]) →
    let valid := s.tblValid || decide (s.phase = .ihdr)
    let table := if s.phase = .ihdr then builtTable else s.tbl
    (writeAnswer s = .success → exec (.encpng 0) s = .next { takeWrite s with
      tbl := table, tblValid := valid
      out := s.out ++ bytes
      outCount := s.outCount + BitVec.ofNat 32 bytes.length
      phase := next }) ∧
    (∀ k, writeAnswer s = .failure k → exec (.encpng 0) s = .next { takeWrite s with
      tbl := table, tblValid := valid
      out := s.out ++ bytes.take k
      outCount := s.outCount + BitVec.ofNat 32 (min k bytes.length)
      err := true, errCode := some .ioWrite
      errInfo := s.outCount + BitVec.ofNat 32 (min k bytes.length)
      busy := false, done := true })

/-- R117: the COMPRESS phase writes the compressed image at DST and its length to ZLEN. -/
def Obligations.EncpngCompressesIntoTheDestination : Prop :=
  ∀ (s : State) (rgb z : Bytes), s.phase = .compress → ImageOperandsOk s → SourceImage s rgb →
    deflate s.cfg.compressor (filtered rgb s.lat.ops.width.toNat s.lat.ops.height.toNat) = some z →
    z.length ≤ s.lat.ops.dstCap.toNat →
    ∃ m, exec (.encpng 0) s = .next { s with
        mem := m, zlen := BitVec.ofNat 32 z.length, phase := .idat } ∧
      m.readBytes s.lat.ops.dstAddr.toNat z.length = some z ∧
      ∀ a, (a < s.lat.ops.dstAddr.toNat ∨ s.lat.ops.dstAddr.toNat + z.length ≤ a) →
        m.read a = s.mem.read a

/-- R118: the IDAT phase: LENGTH for a payload above 2^31 - 1, and otherwise the IDAT chunk of the ZLEN
bytes at DST, or the prefix of it that landed. -/
def Obligations.EncpngAppendsIdat : Prop :=
  ∀ s : State, s.phase = .idat →
    (0x7FFFFFFF < s.zlen.toNat → exec (.encpng 0) s = .next (raise .length s.zlen s)) ∧
    (∀ z, s.zlen.toNat ≤ 0x7FFFFFFF → RegionInRange s.cfg.memSize s.lat.ops.dstAddr s.zlen.toNat →
      s.mem.readBytes s.lat.ops.dstAddr.toNat s.zlen.toNat = some z →
      let chunk := be32 s.zlen ++ tagIdat ++ z ++ be32 (crc32 s.tbl 0 (tagIdat ++ z))
      (writeAnswer s = .success → exec (.encpng 0) s = .next { takeWrite s with
        out := s.out ++ chunk
        outCount := s.outCount + BitVec.ofNat 32 (12 + s.zlen.toNat)
        phase := .iend }) ∧
      (∀ k, writeAnswer s = .failure k → exec (.encpng 0) s = .next { takeWrite s with
        out := s.out ++ chunk.take k
        outCount := s.outCount + BitVec.ofNat 32 (min k (12 + s.zlen.toNat))
        err := true, errCode := some .ioWrite
        errInfo := s.outCount + BitVec.ofNat 32 (min k (12 + s.zlen.toNat))
        busy := false, done := true }))

/-- R120: the CLOSE phase closes the stream, gives the file length and completes. In a machine whose
invariant holds that length is 57 + ZLEN. -/
def Obligations.EncpngClosesAndCompletes : Prop :=
  ∀ s : State, s.phase = .closing →
    exec (.encpng 0) s = .next { s with
      strmOpen := false, result := s.outCount, busy := false, done := true, phase := .idle } ∧
    (s.busy = true → Inv s → s.outCount = 57 + s.zlen)

/-- R121: an error in any phase ends ENCPNG at once: the phase stays, the stream is not closed, and the
bytes before it stay in OUT (an open may have emptied it). -/
def Obligations.EncpngErrorKeepsPhaseAndStream : Prop :=
  ∀ (s t : State) (ft : BitVec 3), s.err = false → exec (.encpng ft) s = .next t → t.err = true →
    t.busy = false ∧ t.done = true ∧ t.phase = s.phase ∧ t.strmOpen = s.strmOpen ∧
      t.result = s.result ∧ (s.phase ≠ .opening → s.out <+: t.out)

/-- R112, R113 to R120: eight Engine steps of an ENCPNG whose sink succeeds leave the PNG file in OUT,
the compressed image at DST and the file length in RESULT. That ZLEN still holds the payload length after
completion is the model's choice, not the spec's (R36, notes/assumptions/27.md). -/
def Obligations.EncpngWritesThePngFile : Prop :=
  ∀ (s : State) (rgb z : Bytes) (os : List OpenOutcome) (ws : List WriteOutcome),
    s.busy = true → s.phase = .exec → s.script = [] → decode s.lat.cmd = .ok (.encpng 0) →
    TableInv s → s.strmOpen = false →
    ImageOperandsOk s → SourceImage s rgb →
    deflate s.cfg.compressor (filtered rgb s.lat.ops.width.toNat s.lat.ops.height.toNat) = some z →
    z.length ≤ s.lat.ops.dstCap.toNat → z.length ≤ 0x7FFFFFFF →
    s.opens = .success :: os → s.writes = .success :: .success :: .success :: .success :: ws →
    runSteps 8 s = .next { s with
      opens := os
      writes := ws
      busy := false
      done := true
      phase := .idle
      tbl := builtTable
      tblValid := true
      mem := s.mem.writeBytes s.lat.ops.dstAddr.toNat z
      zlen := BitVec.ofNat 32 z.length
      out := pngFile builtTable s.lat.ops.width s.lat.ops.height z
      outCount := BitVec.ofNat 32 (57 + z.length)
      result := BitVec.ofNat 32 (57 + z.length) }

/-- R123: two ENCPNG commands that both succeed on equal dimensions and equal RGB bytes, with the same
Deflate, leave equal OUT, wherever their buffers lie. -/
def Obligations.EncpngIsIdempotent : Prop :=
  ∀ (s₁ s₂ t₁ t₂ : State) (rgb : Bytes),
    (∀ s ∈ [s₁, s₂], s.busy = true ∧ s.err = false ∧ s.phase = .exec ∧ s.script = [] ∧
      decode s.lat.cmd = .ok (.encpng 0) ∧ TableInv s ∧ SourceImage s rgb) →
    s₁.lat.ops.width = s₂.lat.ops.width → s₁.lat.ops.height = s₂.lat.ops.height →
    s₁.cfg.compressor = s₂.cfg.compressor →
    runSteps 8 s₁ = .next t₁ → runSteps 8 s₂ = .next t₂ → t₁.err = false → t₂.err = false →
    t₁.out = t₂.out

/-! Pixel converter (44_pixel_convert.md). -/

/-- R126: RGB writes three bytes a pixel at DST and gives their number; every other byte stays. -/
def Obligations.RgbWritesTheConvertedPixels : Prop :=
  ∀ (s : State) (words : Bytes), PixelOperandsOk s →
    s.mem.readBytes s.lat.ops.srcAddr.toNat
      (4 * (s.lat.ops.width.toNat * s.lat.ops.height.toNat)) = some words →
    let n := s.lat.ops.width.toNat * s.lat.ops.height.toNat
    ∃ m, exec .rgb s = .next { s with
        mem := m, result := BitVec.ofNat 32 (3 * n), busy := false, done := true, phase := .idle } ∧
      m.readBytes s.lat.ops.dstAddr.toNat (3 * n) = some (toRgb s.cfg.pixelByteOrder words) ∧
      ∀ a, (a < s.lat.ops.dstAddr.toNat ∨ s.lat.ops.dstAddr.toNat + 3 * n ≤ a) →
        m.read a = s.mem.read a

/-- R48, R124, R125, R127: each lane of the conversion: red, green and blue of pixel `i` are bytes 2, 1, 0
of its four bytes in LE memory and bytes 1, 2, 3 in BE memory; the high byte goes nowhere. -/
def Obligations.RgbLanesAreIndependent : Prop :=
  ∀ (words : Bytes) (n i : Nat), words.length = 4 * n → i < n →
    (∀ order, (toRgb order words).length = 3 * n) ∧
    (toRgb .le words)[3 * i]? = words[4 * i + 2]? ∧
    (toRgb .le words)[3 * i + 1]? = words[4 * i + 1]? ∧
    (toRgb .le words)[3 * i + 2]? = words[4 * i]? ∧
    (toRgb .be words)[3 * i]? = words[4 * i + 1]? ∧
    (toRgb .be words)[3 * i + 1]? = words[4 * i + 2]? ∧
    (toRgb .be words)[3 * i + 2]? = words[4 * i + 3]?

/-- R126, R132: the errors of RGB, in their order. -/
def Obligations.RgbErrorsInOrder : Prop :=
  ∀ s : State,
    let o := s.lat.ops
    let n := o.width.toNat * o.height.toNat
    let aligned := o.srcAddr.toNat % 4 = 0
    (¬ PixelDimsOk o → exec .rgb s = .next (raise .badDim 0 s)) ∧
    (PixelDimsOk o → ¬ aligned → exec .rgb s = .next (raise .misaligned o.srcAddr s)) ∧
    (PixelDimsOk o → aligned →
      o.srcLen.toNat < 4 * n ∨ ¬ RegionInRange s.cfg.memSize o.srcAddr (4 * n) →
      exec .rgb s = .next (raise .memory o.srcAddr s)) ∧
    (PixelDimsOk o → aligned → 4 * n ≤ o.srcLen.toNat →
      RegionInRange s.cfg.memSize o.srcAddr (4 * n) →
      ¬ RegionInRange s.cfg.memSize o.dstAddr o.dstCap.toNat ∨ o.dstCap.toNat < 3 * n →
      exec .rgb s = .next (raise .memory o.dstAddr s)) ∧
    (PixelDimsOk o → aligned → 4 * n ≤ o.srcLen.toNat →
      RegionInRange s.cfg.memSize o.srcAddr (4 * n) →
      RegionInRange s.cfg.memSize o.dstAddr o.dstCap.toNat → 3 * n ≤ o.dstCap.toNat →
      RegionsOverlap o.srcAddr (4 * n) o.dstAddr o.dstCap.toNat →
      exec .rgb s = .next (raise .overlap o.dstAddr s))

/-! Errors, completion and whole-machine rules (60_exceptions.md). -/

/-- R130, R131: the two ways a command ends. -/
def Obligations.ErrorAndSuccessCompletion : Prop :=
  ∀ (s : State) (e : DevError) (info : Word),
    raise e info s = { s with
      err := true, errCode := some e, errInfo := info, busy := false, done := true } ∧
    complete s = { s with busy := false, done := true, phase := .idle }

/-- R133: an Engine step that ends in a pre-check error changes nothing but STATUS and ERRINFO. -/
def Obligations.PreCheckErrorsArePrecise : Prop :=
  ∀ (s t : State) (e : DevError), s.errCode = none → engineStep s = .next t → t.errCode = some e →
    e.isPreCheck = true →
    t = { s with err := true, errCode := some e, errInfo := t.errInfo, busy := false, done := true }

/-- R37, R38: no command writes an operand register, a latch or OVR, nor the machine's parameters. -/
def Obligations.CommandsWriteNoOperandRegister : Prop :=
  ∀ (i : Instr) (s t : State), exec i s = .next t →
    t.ops = s.ops ∧ t.lat = s.lat ∧ t.ovr = s.ovr ∧ t.cfg = s.cfg ∧ t.script = s.script ∧
      t.rdata = s.rdata

/-- The memory frame of every command: the commands without a destination store nothing, and the others
store inside (DST_ADDR, DST_CAP) only. -/
def Obligations.CommandsStoreInsideTheirDestinationOnly : Prop :=
  ∀ (i : Instr) (s t : State) (a : Nat), exec i s = .next t →
    i ∈ [.tblinit, .crc, .sopen, .sclose, .wsig, .wchunk] ∨ a < s.lat.ops.dstAddr.toNat ∨
      s.lat.ops.dstAddr.toNat + s.lat.ops.dstCap.toNat ≤ a →
    t.mem.read a = s.mem.read a

/-- R27: RESULT changes only when a command completes without error. -/
def Obligations.ResultChangesOnlyOnSuccess : Prop :=
  ∀ (i : Instr) (s t : State), exec i s = .next t → t.result ≠ s.result →
    t.busy = false ∧ t.done = true ∧ t.phase = .idle ∧ t.err = s.err ∧ t.errCode = s.errCode ∧
      (i = .crc ∨ i = .wchunk ∨ (∃ ft, i = .filt ft ∨ i = .fcomp ft ∨ i = .encpng ft) ∨ i = .rgb)

/-- R60: nothing but an open removes bytes from OUT, and only a command that appends lengthens it. -/
def Obligations.OutputGrowsOnlyAtItsEnd : Prop :=
  ∀ (i : Instr) (s t : State), exec i s = .next t →
    i ≠ .sopen → ¬ (s.phase = .opening ∧ ∃ ft, i = .encpng ft) →
    s.out <+: t.out ∧
      (i ∈ [.tblinit, .crc, .sclose, .rgb] ∨ (∃ ft, i = .filt ft ∨ i = .fcomp ft) → t.out = s.out)

/-- R32, R77: once valid, the table changes and its validity ends only by RESET. -/
def Obligations.TableStaysUntilReset : Prop :=
  ∀ s t : State, step s = .next t → (∀ rest, s.script ≠ .host .reset :: rest) →
    s.tblValid = true → t.tblValid = true ∧ t.tbl = s.tbl

/-- R75, R159: every command but ENCPNG is over after its one Engine step. -/
def Obligations.CommandsButEncpngTakeOneStep : Prop :=
  ∀ (i : Instr) (s t : State), exec i s = .next t → (∀ ft, i ≠ .encpng ft) →
    t.busy = false ∧ t.done = true

/-- R145, R159: a command, legal or not, is over after at most eight Engine steps, unless its reads meet
an unwritten byte, which is the model fault UNINIT_READ. The schedule is the one of an empty queue, in
which the Engine moves while BUSY = 1 (the model's choice, notes/assumptions/14.md). -/
def Obligations.EveryCommandEndsWithinEightSteps : Prop :=
  ∀ s : State, s.busy = true → s.phase = .exec → s.script = [] →
    runSteps 8 s = .fault .uninitRead ∨ ∃ t, runSteps 8 s = .next t ∧ t.busy = false

/-! Invariants. -/

/-- The invariant holds at power-on. -/
def Obligations.PowerOnMeetsTheInvariant : Prop := Inv State.reset

/-- Every step keeps buffer memory in its canonical form and inside MEM_SIZE. -/
def Obligations.StepKeepsMemoryCanonical : Prop :=
  ∀ s t : State, MemoryInv s → step s = .next t → MemoryInv t

/-- R32, R77: every step keeps a valid table the table of TblEntry. -/
def Obligations.StepKeepsTheTableBuilt : Prop :=
  ∀ s t : State, TableInv s → step s = .next t → TableInv t

/-- R17, R18, R33, R130, R131: every step keeps the completion bits, the error code, ERRINFO and the phase
in agreement. -/
def Obligations.StepKeepsTheStatusConsistent : Prop :=
  ∀ s t : State, StatusInv s → step s = .next t → StatusInv t

/-- Every step keeps the whole invariant: a running ENCPNG has done what its phase says, its payload and
its source stand in memory whatever the Host does between its steps, and OUT_COUNT counts OUT. -/
def Obligations.StepKeepsTheInvariant : Prop :=
  ∀ s t : State, Inv s → step s = .next t → Inv t
end

