-- ==== Sys2Proof/Laws/Memory.lean ====
section
/-! SUPPORT. The laws of buffer memory: what a read gives after a write, and that every write keeps the
canonical form. -/

namespace Sys2Proof.Machine

/-! One byte. -/

theorem Memory.read_write_same (m : Memory) (a : Nat) (b : Byte) : (m.write a b).read a = some b := by
  induction m with
  | nil => simp [Memory.write, Memory.read]
  | cons c m ih =>
    obtain ⟨k, v⟩ := c
    simp only [Memory.write]
    split
    · simp [Memory.read]
    · split
      · simp [Memory.read]
      · rename_i h
        have : k ≠ a := fun e => h e.symm
        simp [Memory.read, this, ih]

theorem Memory.read_write_other (m : Memory) {a c : Nat} (b : Byte) (h : c ≠ a) :
    (m.write a b).read c = m.read c := by
  induction m with
  | nil => simp [Memory.write, Memory.read, h.symm]
  | cons d m ih =>
    obtain ⟨k, v⟩ := d
    simp only [Memory.write]
    split
    · simp [Memory.read, h.symm]
    · split
      · rename_i e
        subst e
        simp [Memory.read, h.symm]
      · simp only [Memory.read, ih]

theorem Memory.read_write (m : Memory) (a c : Nat) (b : Byte) :
    (m.write a b).read c = if c = a then some b else m.read c := by
  split
  · rename_i h; subst h; exact m.read_write_same c b
  · rename_i h; exact m.read_write_other b h

/-- A write lists no address but its own and those listed before. -/
theorem Memory.mem_write {m : Memory} {a : Nat} {b : Byte} {c : Host.Cell} (h : c ∈ m.write a b) :
    c = (a, b) ∨ c ∈ m := by
  induction m with
  | nil => simpa [Memory.write] using h
  | cons d m ih =>
    obtain ⟨k, v⟩ := d
    simp only [Memory.write] at h
    split at h
    · simpa using h
    · split at h
      · rcases List.mem_cons.1 h with h | h
        · exact .inl h
        · exact .inr (List.mem_cons_of_mem _ h)
      · rcases List.mem_cons.1 h with h | h
        · exact .inr (by simp [h])
        · rcases ih h with h | h
          · exact .inl h
          · exact .inr (List.mem_cons_of_mem _ h)

theorem Memory.wf_write {m : Memory} (h : m.wf) (a : Nat) (b : Byte) : (m.write a b).wf := by
  induction m with
  | nil => simp [Memory.write]
  | cons d m ih =>
    obtain ⟨k, v⟩ := d
    obtain ⟨hk, hm⟩ := List.pairwise_cons.1 h
    simp only [Memory.write]
    split
    · rename_i hlt
      refine List.pairwise_cons.2 ⟨fun c hc => ?_, h⟩
      rcases List.mem_cons.1 hc with rfl | hc
      · exact hlt
      · exact Nat.lt_trans hlt (hk c hc)
    · split
      · rename_i e
        subst e
        exact List.pairwise_cons.2 ⟨hk, hm⟩
      · rename_i h1 h2
        refine List.pairwise_cons.2 ⟨fun c hc => ?_, ih hm⟩
        rcases Memory.mem_write hc with rfl | hc
        · exact Nat.lt_of_le_of_ne (Nat.le_of_not_lt h1) (Ne.symm h2)
        · exact hk c hc

/-- Memory at power-on is in its canonical form. -/
theorem reset_mem_wf : State.reset.mem.wf := List.Pairwise.nil

/-! Byte sequences. -/

theorem Memory.read_writeBytes (bs : Bytes) (m : Memory) (a c : Nat) :
    (m.writeBytes a bs).read c =
      if a ≤ c ∧ c < a + bs.length then bs[c - a]? else m.read c := by
  induction bs generalizing m a with
  | nil => simp [Memory.writeBytes]
  | cons b bs ih =>
    simp only [Memory.writeBytes, ih, Memory.read_write, List.length_cons]
    by_cases h1 : a + 1 ≤ c ∧ c < a + 1 + bs.length
    · rw [if_pos h1, if_pos (by omega)]
      have : c - a = (c - (a + 1)) + 1 := by omega
      rw [this, List.getElem?_cons_succ]
    · rw [if_neg h1]
      by_cases h2 : c = a
      · subst h2; simp
      · rw [if_neg h2, if_neg (by omega)]

/-- Outside the bytes it stores a write changes nothing. -/
theorem Memory.read_writeBytes_outside {bs : Bytes} {m : Memory} {a c : Nat}
    (h : c < a ∨ a + bs.length ≤ c) : (m.writeBytes a bs).read c = m.read c := by
  rw [Memory.read_writeBytes, if_neg (by omega)]

theorem Memory.mem_writeBytes {bs : Bytes} {m : Memory} {a : Nat} {c : Host.Cell}
    (h : c ∈ m.writeBytes a bs) : (a ≤ c.1 ∧ c.1 < a + bs.length) ∨ c ∈ m := by
  induction bs generalizing m a with
  | nil => exact .inr h
  | cons b bs ih =>
    simp only [List.length_cons]
    rcases ih h with h | h
    · left; omega
    · rcases Memory.mem_write h with rfl | h
      · left; simp
      · exact .inr h

theorem Memory.wf_writeBytes {bs : Bytes} {m : Memory} (h : m.wf) (a : Nat) :
    (m.writeBytes a bs).wf := by
  induction bs generalizing m a with
  | nil => exact h
  | cons b bs ih => exact ih (Memory.wf_write h a b) (a + 1)

/-- What a read of `n` bytes gives: `n` bytes, each the byte at its address. -/
theorem Memory.readBytes_eq_some {m : Memory} {a n : Nat} {bs : Bytes} :
    m.readBytes a n = some bs ↔
      bs.length = n ∧ ∀ k, k < n → m.read (a + k) = bs[k]? := by
  induction n generalizing a bs with
  | zero =>
    simp only [Memory.readBytes, Option.some.injEq]
    constructor
    · rintro rfl; simp
    · rintro ⟨h, -⟩; exact (List.length_eq_zero_iff.1 h).symm
  | succ n ih =>
    simp only [Memory.readBytes]
    constructor
    · intro h
      split at h
      · rename_i b cs hb hcs
        cases h
        obtain ⟨hl, hr⟩ := ih.1 hcs
        refine ⟨by simp [hl], fun k hk => ?_⟩
        cases k with
        | zero => simpa using hb
        | succ k => simpa [Nat.add_assoc, Nat.add_comm 1 k] using hr k (by omega)
      · cases h
    · rintro ⟨hl, hr⟩
      cases bs with
      | nil => simp at hl
      | cons b cs =>
        have h0 : m.read a = some b := by simpa using hr 0 (by omega)
        have h1 : m.readBytes (a + 1) n = some cs := by
          refine ih.2 ⟨by simpa using hl, fun k hk => ?_⟩
          have := hr (k + 1) (by omega)
          simpa [Nat.add_assoc, Nat.add_comm 1 k] using this
        simp [h0, h1]

/-- A byte that is unwritten leaves the whole read without a value. -/
theorem Memory.readBytes_eq_none {m : Memory} {a n k : Nat} (hk : k < n)
    (h : m.read (a + k) = none) : m.readBytes a n = none := by
  refine Option.eq_none_iff_forall_ne_some.2 fun bs hb => ?_
  obtain ⟨hl, hr⟩ := Memory.readBytes_eq_some.1 hb
  have := hr k hk
  rw [h, List.getElem?_eq_getElem (by omega)] at this
  cases this

/-- Reading back what was written. -/
theorem Memory.readBytes_writeBytes (m : Memory) (a : Nat) (bs : Bytes) :
    (m.writeBytes a bs).readBytes a bs.length = some bs := by
  refine Memory.readBytes_eq_some.2 ⟨rfl, fun k hk => ?_⟩
  rw [Memory.read_writeBytes, if_pos (by omega)]
  congr 1
  omega

/-- A read depends on the bytes of its region only. -/
theorem Memory.readBytes_congr {m m' : Memory} {a n : Nat}
    (h : ∀ c, a ≤ c → c < a + n → m'.read c = m.read c) : m'.readBytes a n = m.readBytes a n := by
  induction n generalizing a with
  | zero => rfl
  | succ n ih =>
    simp only [Memory.readBytes]
    rw [h a (by omega) (by omega), ih fun c h1 h2 => h c (by omega) (by omega)]

end Sys2Proof.Machine
end

