-- ==== Sys2Proof/Laws/State.lean ====
section
/-! SUPPORT. What each update of the state does to each field: one lemma a field, so that no later
proof unfolds an update. -/

namespace Sys2Proof.Machine

/-! `raise`. -/

@[simp] theorem raise_cfg (e : DevError) (info : Word) (s : State) : (raise e info s).cfg = s.cfg := rfl
@[simp] theorem raise_ops (e : DevError) (info : Word) (s : State) : (raise e info s).ops = s.ops := rfl
@[simp] theorem raise_lat (e : DevError) (info : Word) (s : State) : (raise e info s).lat = s.lat := rfl
@[simp] theorem raise_busy (e : DevError) (info : Word) (s : State) : (raise e info s).busy = false := rfl
@[simp] theorem raise_done (e : DevError) (info : Word) (s : State) : (raise e info s).done = true := rfl
@[simp] theorem raise_err (e : DevError) (info : Word) (s : State) : (raise e info s).err = true := rfl
@[simp] theorem raise_ovr (e : DevError) (info : Word) (s : State) : (raise e info s).ovr = s.ovr := rfl
@[simp] theorem raise_errCode (e : DevError) (info : Word) (s : State) : (raise e info s).errCode = some e := rfl
@[simp] theorem raise_tblValid (e : DevError) (info : Word) (s : State) : (raise e info s).tblValid = s.tblValid := rfl
@[simp] theorem raise_strmOpen (e : DevError) (info : Word) (s : State) : (raise e info s).strmOpen = s.strmOpen := rfl
@[simp] theorem raise_phase (e : DevError) (info : Word) (s : State) : (raise e info s).phase = s.phase := rfl
@[simp] theorem raise_errInfo (e : DevError) (info : Word) (s : State) : (raise e info s).errInfo = info := rfl
@[simp] theorem raise_result (e : DevError) (info : Word) (s : State) : (raise e info s).result = s.result := rfl
@[simp] theorem raise_outCount (e : DevError) (info : Word) (s : State) : (raise e info s).outCount = s.outCount := rfl
@[simp] theorem raise_tbl (e : DevError) (info : Word) (s : State) : (raise e info s).tbl = s.tbl := rfl
@[simp] theorem raise_zlen (e : DevError) (info : Word) (s : State) : (raise e info s).zlen = s.zlen := rfl
@[simp] theorem raise_mem (e : DevError) (info : Word) (s : State) : (raise e info s).mem = s.mem := rfl
@[simp] theorem raise_out (e : DevError) (info : Word) (s : State) : (raise e info s).out = s.out := rfl
@[simp] theorem raise_opens (e : DevError) (info : Word) (s : State) : (raise e info s).opens = s.opens := rfl
@[simp] theorem raise_writes (e : DevError) (info : Word) (s : State) : (raise e info s).writes = s.writes := rfl
@[simp] theorem raise_script (e : DevError) (info : Word) (s : State) : (raise e info s).script = s.script := rfl
@[simp] theorem raise_rdata (e : DevError) (info : Word) (s : State) : (raise e info s).rdata = s.rdata := rfl
@[simp] theorem raise_draws (e : DevError) (info : Word) (s : State) : (raise e info s).draws = s.draws := rfl

/-! `complete`. -/

@[simp] theorem complete_cfg (s : State) : (complete s).cfg = s.cfg := rfl
@[simp] theorem complete_ops (s : State) : (complete s).ops = s.ops := rfl
@[simp] theorem complete_lat (s : State) : (complete s).lat = s.lat := rfl
@[simp] theorem complete_busy (s : State) : (complete s).busy = false := rfl
@[simp] theorem complete_done (s : State) : (complete s).done = true := rfl
@[simp] theorem complete_err (s : State) : (complete s).err = s.err := rfl
@[simp] theorem complete_ovr (s : State) : (complete s).ovr = s.ovr := rfl
@[simp] theorem complete_errCode (s : State) : (complete s).errCode = s.errCode := rfl
@[simp] theorem complete_tblValid (s : State) : (complete s).tblValid = s.tblValid := rfl
@[simp] theorem complete_strmOpen (s : State) : (complete s).strmOpen = s.strmOpen := rfl
@[simp] theorem complete_phase (s : State) : (complete s).phase = .idle := rfl
@[simp] theorem complete_errInfo (s : State) : (complete s).errInfo = s.errInfo := rfl
@[simp] theorem complete_result (s : State) : (complete s).result = s.result := rfl
@[simp] theorem complete_outCount (s : State) : (complete s).outCount = s.outCount := rfl
@[simp] theorem complete_tbl (s : State) : (complete s).tbl = s.tbl := rfl
@[simp] theorem complete_zlen (s : State) : (complete s).zlen = s.zlen := rfl
@[simp] theorem complete_mem (s : State) : (complete s).mem = s.mem := rfl
@[simp] theorem complete_out (s : State) : (complete s).out = s.out := rfl
@[simp] theorem complete_opens (s : State) : (complete s).opens = s.opens := rfl
@[simp] theorem complete_writes (s : State) : (complete s).writes = s.writes := rfl
@[simp] theorem complete_script (s : State) : (complete s).script = s.script := rfl
@[simp] theorem complete_rdata (s : State) : (complete s).rdata = s.rdata := rfl
@[simp] theorem complete_draws (s : State) : (complete s).draws = s.draws := rfl

/-! `completeWith`. -/

@[simp] theorem completeWith_cfg (r : Word) (s : State) : (completeWith r s).cfg = s.cfg := rfl
@[simp] theorem completeWith_ops (r : Word) (s : State) : (completeWith r s).ops = s.ops := rfl
@[simp] theorem completeWith_lat (r : Word) (s : State) : (completeWith r s).lat = s.lat := rfl
@[simp] theorem completeWith_busy (r : Word) (s : State) : (completeWith r s).busy = false := rfl
@[simp] theorem completeWith_done (r : Word) (s : State) : (completeWith r s).done = true := rfl
@[simp] theorem completeWith_err (r : Word) (s : State) : (completeWith r s).err = s.err := rfl
@[simp] theorem completeWith_ovr (r : Word) (s : State) : (completeWith r s).ovr = s.ovr := rfl
@[simp] theorem completeWith_errCode (r : Word) (s : State) : (completeWith r s).errCode = s.errCode := rfl
@[simp] theorem completeWith_tblValid (r : Word) (s : State) : (completeWith r s).tblValid = s.tblValid := rfl
@[simp] theorem completeWith_strmOpen (r : Word) (s : State) : (completeWith r s).strmOpen = s.strmOpen := rfl
@[simp] theorem completeWith_phase (r : Word) (s : State) : (completeWith r s).phase = .idle := rfl
@[simp] theorem completeWith_errInfo (r : Word) (s : State) : (completeWith r s).errInfo = s.errInfo := rfl
@[simp] theorem completeWith_result (r : Word) (s : State) : (completeWith r s).result = r := rfl
@[simp] theorem completeWith_outCount (r : Word) (s : State) : (completeWith r s).outCount = s.outCount := rfl
@[simp] theorem completeWith_tbl (r : Word) (s : State) : (completeWith r s).tbl = s.tbl := rfl
@[simp] theorem completeWith_zlen (r : Word) (s : State) : (completeWith r s).zlen = s.zlen := rfl
@[simp] theorem completeWith_mem (r : Word) (s : State) : (completeWith r s).mem = s.mem := rfl
@[simp] theorem completeWith_out (r : Word) (s : State) : (completeWith r s).out = s.out := rfl
@[simp] theorem completeWith_opens (r : Word) (s : State) : (completeWith r s).opens = s.opens := rfl
@[simp] theorem completeWith_writes (r : Word) (s : State) : (completeWith r s).writes = s.writes := rfl
@[simp] theorem completeWith_script (r : Word) (s : State) : (completeWith r s).script = s.script := rfl
@[simp] theorem completeWith_rdata (r : Word) (s : State) : (completeWith r s).rdata = s.rdata := rfl
@[simp] theorem completeWith_draws (r : Word) (s : State) : (completeWith r s).draws = s.draws := rfl

/-! `accept`. -/

@[simp] theorem accept_cfg (v : Word) (s : State) : (accept v s).cfg = s.cfg := rfl
@[simp] theorem accept_ops (v : Word) (s : State) : (accept v s).ops = s.ops := rfl
@[simp] theorem accept_lat (v : Word) (s : State) : (accept v s).lat = ⟨v, s.ops⟩ := rfl
@[simp] theorem accept_busy (v : Word) (s : State) : (accept v s).busy = true := rfl
@[simp] theorem accept_done (v : Word) (s : State) : (accept v s).done = false := rfl
@[simp] theorem accept_err (v : Word) (s : State) : (accept v s).err = false := rfl
@[simp] theorem accept_ovr (v : Word) (s : State) : (accept v s).ovr = false := rfl
@[simp] theorem accept_errCode (v : Word) (s : State) : (accept v s).errCode = none := rfl
@[simp] theorem accept_tblValid (v : Word) (s : State) : (accept v s).tblValid = s.tblValid := rfl
@[simp] theorem accept_strmOpen (v : Word) (s : State) : (accept v s).strmOpen = s.strmOpen := rfl
@[simp] theorem accept_phase (v : Word) (s : State) : (accept v s).phase = .exec := rfl
@[simp] theorem accept_errInfo (v : Word) (s : State) : (accept v s).errInfo = 0 := rfl
@[simp] theorem accept_result (v : Word) (s : State) : (accept v s).result = s.result := rfl
@[simp] theorem accept_outCount (v : Word) (s : State) : (accept v s).outCount = s.outCount := rfl
@[simp] theorem accept_tbl (v : Word) (s : State) : (accept v s).tbl = s.tbl := rfl
@[simp] theorem accept_zlen (v : Word) (s : State) : (accept v s).zlen = s.zlen := rfl
@[simp] theorem accept_mem (v : Word) (s : State) : (accept v s).mem = s.mem := rfl
@[simp] theorem accept_out (v : Word) (s : State) : (accept v s).out = s.out := rfl
@[simp] theorem accept_opens (v : Word) (s : State) : (accept v s).opens = s.opens := rfl
@[simp] theorem accept_writes (v : Word) (s : State) : (accept v s).writes = s.writes := rfl
@[simp] theorem accept_script (v : Word) (s : State) : (accept v s).script = s.script := rfl
@[simp] theorem accept_rdata (v : Word) (s : State) : (accept v s).rdata = s.rdata := rfl
@[simp] theorem accept_draws (v : Word) (s : State) : (accept v s).draws = s.draws := rfl

/-! `toPhase`. -/

@[simp] theorem toPhase_cfg (p : Phase) (s : State) : (toPhase p s).cfg = s.cfg := rfl
@[simp] theorem toPhase_ops (p : Phase) (s : State) : (toPhase p s).ops = s.ops := rfl
@[simp] theorem toPhase_lat (p : Phase) (s : State) : (toPhase p s).lat = s.lat := rfl
@[simp] theorem toPhase_busy (p : Phase) (s : State) : (toPhase p s).busy = s.busy := rfl
@[simp] theorem toPhase_done (p : Phase) (s : State) : (toPhase p s).done = s.done := rfl
@[simp] theorem toPhase_err (p : Phase) (s : State) : (toPhase p s).err = s.err := rfl
@[simp] theorem toPhase_ovr (p : Phase) (s : State) : (toPhase p s).ovr = s.ovr := rfl
@[simp] theorem toPhase_errCode (p : Phase) (s : State) : (toPhase p s).errCode = s.errCode := rfl
@[simp] theorem toPhase_tblValid (p : Phase) (s : State) : (toPhase p s).tblValid = s.tblValid := rfl
@[simp] theorem toPhase_strmOpen (p : Phase) (s : State) : (toPhase p s).strmOpen = s.strmOpen := rfl
@[simp] theorem toPhase_phase (p : Phase) (s : State) : (toPhase p s).phase = p := rfl
@[simp] theorem toPhase_errInfo (p : Phase) (s : State) : (toPhase p s).errInfo = s.errInfo := rfl
@[simp] theorem toPhase_result (p : Phase) (s : State) : (toPhase p s).result = s.result := rfl
@[simp] theorem toPhase_outCount (p : Phase) (s : State) : (toPhase p s).outCount = s.outCount := rfl
@[simp] theorem toPhase_tbl (p : Phase) (s : State) : (toPhase p s).tbl = s.tbl := rfl
@[simp] theorem toPhase_zlen (p : Phase) (s : State) : (toPhase p s).zlen = s.zlen := rfl
@[simp] theorem toPhase_mem (p : Phase) (s : State) : (toPhase p s).mem = s.mem := rfl
@[simp] theorem toPhase_out (p : Phase) (s : State) : (toPhase p s).out = s.out := rfl
@[simp] theorem toPhase_opens (p : Phase) (s : State) : (toPhase p s).opens = s.opens := rfl
@[simp] theorem toPhase_writes (p : Phase) (s : State) : (toPhase p s).writes = s.writes := rfl
@[simp] theorem toPhase_script (p : Phase) (s : State) : (toPhase p s).script = s.script := rfl
@[simp] theorem toPhase_rdata (p : Phase) (s : State) : (toPhase p s).rdata = s.rdata := rfl
@[simp] theorem toPhase_draws (p : Phase) (s : State) : (toPhase p s).draws = s.draws := rfl

/-! `storeLength`. -/

@[simp] theorem storeLength_cfg (n : Nat) (s : State) : (storeLength n s).cfg = s.cfg := rfl
@[simp] theorem storeLength_ops (n : Nat) (s : State) : (storeLength n s).ops = s.ops := rfl
@[simp] theorem storeLength_lat (n : Nat) (s : State) : (storeLength n s).lat = s.lat := rfl
@[simp] theorem storeLength_busy (n : Nat) (s : State) : (storeLength n s).busy = s.busy := rfl
@[simp] theorem storeLength_done (n : Nat) (s : State) : (storeLength n s).done = s.done := rfl
@[simp] theorem storeLength_err (n : Nat) (s : State) : (storeLength n s).err = s.err := rfl
@[simp] theorem storeLength_ovr (n : Nat) (s : State) : (storeLength n s).ovr = s.ovr := rfl
@[simp] theorem storeLength_errCode (n : Nat) (s : State) : (storeLength n s).errCode = s.errCode := rfl
@[simp] theorem storeLength_tblValid (n : Nat) (s : State) : (storeLength n s).tblValid = s.tblValid := rfl
@[simp] theorem storeLength_strmOpen (n : Nat) (s : State) : (storeLength n s).strmOpen = s.strmOpen := rfl
@[simp] theorem storeLength_phase (n : Nat) (s : State) : (storeLength n s).phase = .idat := rfl
@[simp] theorem storeLength_errInfo (n : Nat) (s : State) : (storeLength n s).errInfo = s.errInfo := rfl
@[simp] theorem storeLength_result (n : Nat) (s : State) : (storeLength n s).result = s.result := rfl
@[simp] theorem storeLength_outCount (n : Nat) (s : State) : (storeLength n s).outCount = s.outCount := rfl
@[simp] theorem storeLength_tbl (n : Nat) (s : State) : (storeLength n s).tbl = s.tbl := rfl
@[simp] theorem storeLength_zlen (n : Nat) (s : State) : (storeLength n s).zlen = BitVec.ofNat 32 n := rfl
@[simp] theorem storeLength_mem (n : Nat) (s : State) : (storeLength n s).mem = s.mem := rfl
@[simp] theorem storeLength_out (n : Nat) (s : State) : (storeLength n s).out = s.out := rfl
@[simp] theorem storeLength_opens (n : Nat) (s : State) : (storeLength n s).opens = s.opens := rfl
@[simp] theorem storeLength_writes (n : Nat) (s : State) : (storeLength n s).writes = s.writes := rfl
@[simp] theorem storeLength_script (n : Nat) (s : State) : (storeLength n s).script = s.script := rfl
@[simp] theorem storeLength_rdata (n : Nat) (s : State) : (storeLength n s).rdata = s.rdata := rfl
@[simp] theorem storeLength_draws (n : Nat) (s : State) : (storeLength n s).draws = s.draws := rfl

/-! `streamClose`. -/

@[simp] theorem streamClose_cfg (s : State) : (streamClose s).cfg = s.cfg := rfl
@[simp] theorem streamClose_ops (s : State) : (streamClose s).ops = s.ops := rfl
@[simp] theorem streamClose_lat (s : State) : (streamClose s).lat = s.lat := rfl
@[simp] theorem streamClose_busy (s : State) : (streamClose s).busy = s.busy := rfl
@[simp] theorem streamClose_done (s : State) : (streamClose s).done = s.done := rfl
@[simp] theorem streamClose_err (s : State) : (streamClose s).err = s.err := rfl
@[simp] theorem streamClose_ovr (s : State) : (streamClose s).ovr = s.ovr := rfl
@[simp] theorem streamClose_errCode (s : State) : (streamClose s).errCode = s.errCode := rfl
@[simp] theorem streamClose_tblValid (s : State) : (streamClose s).tblValid = s.tblValid := rfl
@[simp] theorem streamClose_strmOpen (s : State) : (streamClose s).strmOpen = false := rfl
@[simp] theorem streamClose_phase (s : State) : (streamClose s).phase = s.phase := rfl
@[simp] theorem streamClose_errInfo (s : State) : (streamClose s).errInfo = s.errInfo := rfl
@[simp] theorem streamClose_result (s : State) : (streamClose s).result = s.result := rfl
@[simp] theorem streamClose_outCount (s : State) : (streamClose s).outCount = s.outCount := rfl
@[simp] theorem streamClose_tbl (s : State) : (streamClose s).tbl = s.tbl := rfl
@[simp] theorem streamClose_zlen (s : State) : (streamClose s).zlen = s.zlen := rfl
@[simp] theorem streamClose_mem (s : State) : (streamClose s).mem = s.mem := rfl
@[simp] theorem streamClose_out (s : State) : (streamClose s).out = s.out := rfl
@[simp] theorem streamClose_opens (s : State) : (streamClose s).opens = s.opens := rfl
@[simp] theorem streamClose_writes (s : State) : (streamClose s).writes = s.writes := rfl
@[simp] theorem streamClose_script (s : State) : (streamClose s).script = s.script := rfl
@[simp] theorem streamClose_rdata (s : State) : (streamClose s).rdata = s.rdata := rfl
@[simp] theorem streamClose_draws (s : State) : (streamClose s).draws = s.draws := rfl

/-! `emptyStream`. -/

@[simp] theorem emptyStream_cfg (s : State) : (emptyStream s).cfg = s.cfg := rfl
@[simp] theorem emptyStream_ops (s : State) : (emptyStream s).ops = s.ops := rfl
@[simp] theorem emptyStream_lat (s : State) : (emptyStream s).lat = s.lat := rfl
@[simp] theorem emptyStream_busy (s : State) : (emptyStream s).busy = s.busy := rfl
@[simp] theorem emptyStream_done (s : State) : (emptyStream s).done = s.done := rfl
@[simp] theorem emptyStream_err (s : State) : (emptyStream s).err = s.err := rfl
@[simp] theorem emptyStream_ovr (s : State) : (emptyStream s).ovr = s.ovr := rfl
@[simp] theorem emptyStream_errCode (s : State) : (emptyStream s).errCode = s.errCode := rfl
@[simp] theorem emptyStream_tblValid (s : State) : (emptyStream s).tblValid = s.tblValid := rfl
@[simp] theorem emptyStream_strmOpen (s : State) : (emptyStream s).strmOpen = true := rfl
@[simp] theorem emptyStream_phase (s : State) : (emptyStream s).phase = s.phase := rfl
@[simp] theorem emptyStream_errInfo (s : State) : (emptyStream s).errInfo = s.errInfo := rfl
@[simp] theorem emptyStream_result (s : State) : (emptyStream s).result = s.result := rfl
@[simp] theorem emptyStream_outCount (s : State) : (emptyStream s).outCount = 0 := rfl
@[simp] theorem emptyStream_tbl (s : State) : (emptyStream s).tbl = s.tbl := rfl
@[simp] theorem emptyStream_zlen (s : State) : (emptyStream s).zlen = s.zlen := rfl
@[simp] theorem emptyStream_mem (s : State) : (emptyStream s).mem = s.mem := rfl
@[simp] theorem emptyStream_out (s : State) : (emptyStream s).out = [] := rfl
@[simp] theorem emptyStream_opens (s : State) : (emptyStream s).opens = s.opens := rfl
@[simp] theorem emptyStream_writes (s : State) : (emptyStream s).writes = s.writes := rfl
@[simp] theorem emptyStream_script (s : State) : (emptyStream s).script = s.script := rfl
@[simp] theorem emptyStream_rdata (s : State) : (emptyStream s).rdata = s.rdata := rfl
@[simp] theorem emptyStream_draws (s : State) : (emptyStream s).draws = s.draws := rfl

/-! `refuseOpen`. -/

@[simp] theorem refuseOpen_cfg (truncated : Bool) (s : State) : (refuseOpen truncated s).cfg = s.cfg := rfl
@[simp] theorem refuseOpen_ops (truncated : Bool) (s : State) : (refuseOpen truncated s).ops = s.ops := rfl
@[simp] theorem refuseOpen_lat (truncated : Bool) (s : State) : (refuseOpen truncated s).lat = s.lat := rfl
@[simp] theorem refuseOpen_busy (truncated : Bool) (s : State) : (refuseOpen truncated s).busy = s.busy := rfl
@[simp] theorem refuseOpen_done (truncated : Bool) (s : State) : (refuseOpen truncated s).done = s.done := rfl
@[simp] theorem refuseOpen_err (truncated : Bool) (s : State) : (refuseOpen truncated s).err = s.err := rfl
@[simp] theorem refuseOpen_ovr (truncated : Bool) (s : State) : (refuseOpen truncated s).ovr = s.ovr := rfl
@[simp] theorem refuseOpen_errCode (truncated : Bool) (s : State) : (refuseOpen truncated s).errCode = s.errCode := rfl
@[simp] theorem refuseOpen_tblValid (truncated : Bool) (s : State) : (refuseOpen truncated s).tblValid = s.tblValid := rfl
@[simp] theorem refuseOpen_strmOpen (truncated : Bool) (s : State) : (refuseOpen truncated s).strmOpen = s.strmOpen := rfl
@[simp] theorem refuseOpen_phase (truncated : Bool) (s : State) : (refuseOpen truncated s).phase = s.phase := rfl
@[simp] theorem refuseOpen_errInfo (truncated : Bool) (s : State) : (refuseOpen truncated s).errInfo = s.errInfo := rfl
@[simp] theorem refuseOpen_result (truncated : Bool) (s : State) : (refuseOpen truncated s).result = s.result := rfl
@[simp] theorem refuseOpen_outCount (truncated : Bool) (s : State) : (refuseOpen truncated s).outCount = s.outCount := rfl
@[simp] theorem refuseOpen_tbl (truncated : Bool) (s : State) : (refuseOpen truncated s).tbl = s.tbl := rfl
@[simp] theorem refuseOpen_zlen (truncated : Bool) (s : State) : (refuseOpen truncated s).zlen = s.zlen := rfl
@[simp] theorem refuseOpen_mem (truncated : Bool) (s : State) : (refuseOpen truncated s).mem = s.mem := rfl
@[simp] theorem refuseOpen_out (truncated : Bool) (s : State) : (refuseOpen truncated s).out = if truncated then [] else s.out := rfl
@[simp] theorem refuseOpen_opens (truncated : Bool) (s : State) : (refuseOpen truncated s).opens = s.opens := rfl
@[simp] theorem refuseOpen_writes (truncated : Bool) (s : State) : (refuseOpen truncated s).writes = s.writes := rfl
@[simp] theorem refuseOpen_script (truncated : Bool) (s : State) : (refuseOpen truncated s).script = s.script := rfl
@[simp] theorem refuseOpen_rdata (truncated : Bool) (s : State) : (refuseOpen truncated s).rdata = s.rdata := rfl
@[simp] theorem refuseOpen_draws (truncated : Bool) (s : State) : (refuseOpen truncated s).draws = s.draws := rfl

/-! `raiseWrite`. -/

@[simp] theorem raiseWrite_cfg (s : State) : (raiseWrite s).cfg = s.cfg := rfl
@[simp] theorem raiseWrite_ops (s : State) : (raiseWrite s).ops = s.ops := rfl
@[simp] theorem raiseWrite_lat (s : State) : (raiseWrite s).lat = s.lat := rfl
@[simp] theorem raiseWrite_busy (s : State) : (raiseWrite s).busy = false := rfl
@[simp] theorem raiseWrite_done (s : State) : (raiseWrite s).done = true := rfl
@[simp] theorem raiseWrite_err (s : State) : (raiseWrite s).err = true := rfl
@[simp] theorem raiseWrite_ovr (s : State) : (raiseWrite s).ovr = s.ovr := rfl
@[simp] theorem raiseWrite_errCode (s : State) : (raiseWrite s).errCode = some .ioWrite := rfl
@[simp] theorem raiseWrite_tblValid (s : State) : (raiseWrite s).tblValid = s.tblValid := rfl
@[simp] theorem raiseWrite_strmOpen (s : State) : (raiseWrite s).strmOpen = s.strmOpen := rfl
@[simp] theorem raiseWrite_phase (s : State) : (raiseWrite s).phase = s.phase := rfl
@[simp] theorem raiseWrite_errInfo (s : State) : (raiseWrite s).errInfo = s.outCount := rfl
@[simp] theorem raiseWrite_result (s : State) : (raiseWrite s).result = s.result := rfl
@[simp] theorem raiseWrite_outCount (s : State) : (raiseWrite s).outCount = s.outCount := rfl
@[simp] theorem raiseWrite_tbl (s : State) : (raiseWrite s).tbl = s.tbl := rfl
@[simp] theorem raiseWrite_zlen (s : State) : (raiseWrite s).zlen = s.zlen := rfl
@[simp] theorem raiseWrite_mem (s : State) : (raiseWrite s).mem = s.mem := rfl
@[simp] theorem raiseWrite_out (s : State) : (raiseWrite s).out = s.out := rfl
@[simp] theorem raiseWrite_opens (s : State) : (raiseWrite s).opens = s.opens := rfl
@[simp] theorem raiseWrite_writes (s : State) : (raiseWrite s).writes = s.writes := rfl
@[simp] theorem raiseWrite_script (s : State) : (raiseWrite s).script = s.script := rfl
@[simp] theorem raiseWrite_rdata (s : State) : (raiseWrite s).rdata = s.rdata := rfl
@[simp] theorem raiseWrite_draws (s : State) : (raiseWrite s).draws = s.draws := rfl

/-! `land`. -/

@[simp] theorem land_cfg (bs : Bytes) (s : State) : (land bs s).cfg = s.cfg := rfl
@[simp] theorem land_ops (bs : Bytes) (s : State) : (land bs s).ops = s.ops := rfl
@[simp] theorem land_lat (bs : Bytes) (s : State) : (land bs s).lat = s.lat := rfl
@[simp] theorem land_busy (bs : Bytes) (s : State) : (land bs s).busy = s.busy := rfl
@[simp] theorem land_done (bs : Bytes) (s : State) : (land bs s).done = s.done := rfl
@[simp] theorem land_err (bs : Bytes) (s : State) : (land bs s).err = s.err := rfl
@[simp] theorem land_ovr (bs : Bytes) (s : State) : (land bs s).ovr = s.ovr := rfl
@[simp] theorem land_errCode (bs : Bytes) (s : State) : (land bs s).errCode = s.errCode := rfl
@[simp] theorem land_tblValid (bs : Bytes) (s : State) : (land bs s).tblValid = s.tblValid := rfl
@[simp] theorem land_strmOpen (bs : Bytes) (s : State) : (land bs s).strmOpen = s.strmOpen := rfl
@[simp] theorem land_phase (bs : Bytes) (s : State) : (land bs s).phase = s.phase := rfl
@[simp] theorem land_errInfo (bs : Bytes) (s : State) : (land bs s).errInfo = s.errInfo := rfl
@[simp] theorem land_result (bs : Bytes) (s : State) : (land bs s).result = s.result := rfl
@[simp] theorem land_outCount (bs : Bytes) (s : State) : (land bs s).outCount = s.outCount + BitVec.ofNat 32 bs.length := rfl
@[simp] theorem land_tbl (bs : Bytes) (s : State) : (land bs s).tbl = s.tbl := rfl
@[simp] theorem land_zlen (bs : Bytes) (s : State) : (land bs s).zlen = s.zlen := rfl
@[simp] theorem land_mem (bs : Bytes) (s : State) : (land bs s).mem = s.mem := rfl
@[simp] theorem land_out (bs : Bytes) (s : State) : (land bs s).out = s.out ++ bs := rfl
@[simp] theorem land_opens (bs : Bytes) (s : State) : (land bs s).opens = s.opens := rfl
@[simp] theorem land_writes (bs : Bytes) (s : State) : (land bs s).writes = s.writes := rfl
@[simp] theorem land_script (bs : Bytes) (s : State) : (land bs s).script = s.script := rfl
@[simp] theorem land_rdata (bs : Bytes) (s : State) : (land bs s).rdata = s.rdata := rfl
@[simp] theorem land_draws (bs : Bytes) (s : State) : (land bs s).draws = s.draws := rfl

/-! `takeTurn`. -/

@[simp] theorem takeTurn_cfg (s : State) : (takeTurn s).cfg = s.cfg := rfl
@[simp] theorem takeTurn_ops (s : State) : (takeTurn s).ops = s.ops := rfl
@[simp] theorem takeTurn_lat (s : State) : (takeTurn s).lat = s.lat := rfl
@[simp] theorem takeTurn_busy (s : State) : (takeTurn s).busy = s.busy := rfl
@[simp] theorem takeTurn_done (s : State) : (takeTurn s).done = s.done := rfl
@[simp] theorem takeTurn_err (s : State) : (takeTurn s).err = s.err := rfl
@[simp] theorem takeTurn_ovr (s : State) : (takeTurn s).ovr = s.ovr := rfl
@[simp] theorem takeTurn_errCode (s : State) : (takeTurn s).errCode = s.errCode := rfl
@[simp] theorem takeTurn_tblValid (s : State) : (takeTurn s).tblValid = s.tblValid := rfl
@[simp] theorem takeTurn_strmOpen (s : State) : (takeTurn s).strmOpen = s.strmOpen := rfl
@[simp] theorem takeTurn_phase (s : State) : (takeTurn s).phase = s.phase := rfl
@[simp] theorem takeTurn_errInfo (s : State) : (takeTurn s).errInfo = s.errInfo := rfl
@[simp] theorem takeTurn_result (s : State) : (takeTurn s).result = s.result := rfl
@[simp] theorem takeTurn_outCount (s : State) : (takeTurn s).outCount = s.outCount := rfl
@[simp] theorem takeTurn_tbl (s : State) : (takeTurn s).tbl = s.tbl := rfl
@[simp] theorem takeTurn_zlen (s : State) : (takeTurn s).zlen = s.zlen := rfl
@[simp] theorem takeTurn_mem (s : State) : (takeTurn s).mem = s.mem := rfl
@[simp] theorem takeTurn_out (s : State) : (takeTurn s).out = s.out := rfl
@[simp] theorem takeTurn_opens (s : State) : (takeTurn s).opens = s.opens := rfl
@[simp] theorem takeTurn_writes (s : State) : (takeTurn s).writes = s.writes := rfl
@[simp] theorem takeTurn_script (s : State) : (takeTurn s).script = s.script.tail := rfl
@[simp] theorem takeTurn_rdata (s : State) : (takeTurn s).rdata = s.rdata := rfl
@[simp] theorem takeTurn_draws (s : State) : (takeTurn s).draws = s.draws := rfl

/-! `ensureTable`. -/

@[simp] theorem ensureTable_cfg (s : State) : (ensureTable s).cfg = s.cfg := by
  unfold ensureTable; split <;> rfl
@[simp] theorem ensureTable_ops (s : State) : (ensureTable s).ops = s.ops := by
  unfold ensureTable; split <;> rfl
@[simp] theorem ensureTable_lat (s : State) : (ensureTable s).lat = s.lat := by
  unfold ensureTable; split <;> rfl
@[simp] theorem ensureTable_busy (s : State) : (ensureTable s).busy = s.busy := by
  unfold ensureTable; split <;> rfl
@[simp] theorem ensureTable_done (s : State) : (ensureTable s).done = s.done := by
  unfold ensureTable; split <;> rfl
@[simp] theorem ensureTable_err (s : State) : (ensureTable s).err = s.err := by
  unfold ensureTable; split <;> rfl
@[simp] theorem ensureTable_ovr (s : State) : (ensureTable s).ovr = s.ovr := by
  unfold ensureTable; split <;> rfl
@[simp] theorem ensureTable_errCode (s : State) : (ensureTable s).errCode = s.errCode := by
  unfold ensureTable; split <;> rfl
@[simp] theorem ensureTable_strmOpen (s : State) : (ensureTable s).strmOpen = s.strmOpen := by
  unfold ensureTable; split <;> rfl
@[simp] theorem ensureTable_phase (s : State) : (ensureTable s).phase = s.phase := by
  unfold ensureTable; split <;> rfl
@[simp] theorem ensureTable_errInfo (s : State) : (ensureTable s).errInfo = s.errInfo := by
  unfold ensureTable; split <;> rfl
@[simp] theorem ensureTable_result (s : State) : (ensureTable s).result = s.result := by
  unfold ensureTable; split <;> rfl
@[simp] theorem ensureTable_outCount (s : State) : (ensureTable s).outCount = s.outCount := by
  unfold ensureTable; split <;> rfl
@[simp] theorem ensureTable_zlen (s : State) : (ensureTable s).zlen = s.zlen := by
  unfold ensureTable; split <;> rfl
@[simp] theorem ensureTable_mem (s : State) : (ensureTable s).mem = s.mem := by
  unfold ensureTable; split <;> rfl
@[simp] theorem ensureTable_out (s : State) : (ensureTable s).out = s.out := by
  unfold ensureTable; split <;> rfl
@[simp] theorem ensureTable_opens (s : State) : (ensureTable s).opens = s.opens := by
  unfold ensureTable; split <;> rfl
@[simp] theorem ensureTable_writes (s : State) : (ensureTable s).writes = s.writes := by
  unfold ensureTable; split <;> rfl
@[simp] theorem ensureTable_script (s : State) : (ensureTable s).script = s.script := by
  unfold ensureTable; split <;> rfl
@[simp] theorem ensureTable_rdata (s : State) : (ensureTable s).rdata = s.rdata := by
  unfold ensureTable; split <;> rfl
@[simp] theorem ensureTable_draws (s : State) : (ensureTable s).draws = s.draws := by
  unfold ensureTable; split <;> rfl

/-! `takeOpen`. -/

@[simp] theorem takeOpen_cfg (s : State) : (takeOpen s).cfg = s.cfg := by
  unfold takeOpen; split <;> rfl
@[simp] theorem takeOpen_ops (s : State) : (takeOpen s).ops = s.ops := by
  unfold takeOpen; split <;> rfl
@[simp] theorem takeOpen_lat (s : State) : (takeOpen s).lat = s.lat := by
  unfold takeOpen; split <;> rfl
@[simp] theorem takeOpen_busy (s : State) : (takeOpen s).busy = s.busy := by
  unfold takeOpen; split <;> rfl
@[simp] theorem takeOpen_done (s : State) : (takeOpen s).done = s.done := by
  unfold takeOpen; split <;> rfl
@[simp] theorem takeOpen_err (s : State) : (takeOpen s).err = s.err := by
  unfold takeOpen; split <;> rfl
@[simp] theorem takeOpen_ovr (s : State) : (takeOpen s).ovr = s.ovr := by
  unfold takeOpen; split <;> rfl
@[simp] theorem takeOpen_errCode (s : State) : (takeOpen s).errCode = s.errCode := by
  unfold takeOpen; split <;> rfl
@[simp] theorem takeOpen_tblValid (s : State) : (takeOpen s).tblValid = s.tblValid := by
  unfold takeOpen; split <;> rfl
@[simp] theorem takeOpen_strmOpen (s : State) : (takeOpen s).strmOpen = s.strmOpen := by
  unfold takeOpen; split <;> rfl
@[simp] theorem takeOpen_phase (s : State) : (takeOpen s).phase = s.phase := by
  unfold takeOpen; split <;> rfl
@[simp] theorem takeOpen_errInfo (s : State) : (takeOpen s).errInfo = s.errInfo := by
  unfold takeOpen; split <;> rfl
@[simp] theorem takeOpen_result (s : State) : (takeOpen s).result = s.result := by
  unfold takeOpen; split <;> rfl
@[simp] theorem takeOpen_outCount (s : State) : (takeOpen s).outCount = s.outCount := by
  unfold takeOpen; split <;> rfl
@[simp] theorem takeOpen_tbl (s : State) : (takeOpen s).tbl = s.tbl := by
  unfold takeOpen; split <;> rfl
@[simp] theorem takeOpen_zlen (s : State) : (takeOpen s).zlen = s.zlen := by
  unfold takeOpen; split <;> rfl
@[simp] theorem takeOpen_mem (s : State) : (takeOpen s).mem = s.mem := by
  unfold takeOpen; split <;> rfl
@[simp] theorem takeOpen_out (s : State) : (takeOpen s).out = s.out := by
  unfold takeOpen; split <;> rfl
@[simp] theorem takeOpen_writes (s : State) : (takeOpen s).writes = s.writes := by
  unfold takeOpen; split <;> rfl
@[simp] theorem takeOpen_script (s : State) : (takeOpen s).script = s.script := by
  unfold takeOpen; split <;> rfl
@[simp] theorem takeOpen_rdata (s : State) : (takeOpen s).rdata = s.rdata := by
  unfold takeOpen; split <;> rfl

/-! `takeWrite`. -/

@[simp] theorem takeWrite_cfg (s : State) : (takeWrite s).cfg = s.cfg := by
  unfold takeWrite; split <;> rfl
@[simp] theorem takeWrite_ops (s : State) : (takeWrite s).ops = s.ops := by
  unfold takeWrite; split <;> rfl
@[simp] theorem takeWrite_lat (s : State) : (takeWrite s).lat = s.lat := by
  unfold takeWrite; split <;> rfl
@[simp] theorem takeWrite_busy (s : State) : (takeWrite s).busy = s.busy := by
  unfold takeWrite; split <;> rfl
@[simp] theorem takeWrite_done (s : State) : (takeWrite s).done = s.done := by
  unfold takeWrite; split <;> rfl
@[simp] theorem takeWrite_err (s : State) : (takeWrite s).err = s.err := by
  unfold takeWrite; split <;> rfl
@[simp] theorem takeWrite_ovr (s : State) : (takeWrite s).ovr = s.ovr := by
  unfold takeWrite; split <;> rfl
@[simp] theorem takeWrite_errCode (s : State) : (takeWrite s).errCode = s.errCode := by
  unfold takeWrite; split <;> rfl
@[simp] theorem takeWrite_tblValid (s : State) : (takeWrite s).tblValid = s.tblValid := by
  unfold takeWrite; split <;> rfl
@[simp] theorem takeWrite_strmOpen (s : State) : (takeWrite s).strmOpen = s.strmOpen := by
  unfold takeWrite; split <;> rfl
@[simp] theorem takeWrite_phase (s : State) : (takeWrite s).phase = s.phase := by
  unfold takeWrite; split <;> rfl
@[simp] theorem takeWrite_errInfo (s : State) : (takeWrite s).errInfo = s.errInfo := by
  unfold takeWrite; split <;> rfl
@[simp] theorem takeWrite_result (s : State) : (takeWrite s).result = s.result := by
  unfold takeWrite; split <;> rfl
@[simp] theorem takeWrite_outCount (s : State) : (takeWrite s).outCount = s.outCount := by
  unfold takeWrite; split <;> rfl
@[simp] theorem takeWrite_tbl (s : State) : (takeWrite s).tbl = s.tbl := by
  unfold takeWrite; split <;> rfl
@[simp] theorem takeWrite_zlen (s : State) : (takeWrite s).zlen = s.zlen := by
  unfold takeWrite; split <;> rfl
@[simp] theorem takeWrite_mem (s : State) : (takeWrite s).mem = s.mem := by
  unfold takeWrite; split <;> rfl
@[simp] theorem takeWrite_out (s : State) : (takeWrite s).out = s.out := by
  unfold takeWrite; split <;> rfl
@[simp] theorem takeWrite_opens (s : State) : (takeWrite s).opens = s.opens := by
  unfold takeWrite; split <;> rfl
@[simp] theorem takeWrite_script (s : State) : (takeWrite s).script = s.script := by
  unfold takeWrite; split <;> rfl
@[simp] theorem takeWrite_rdata (s : State) : (takeWrite s).rdata = s.rdata := by
  unfold takeWrite; split <;> rfl

/-- Once `EnsureTable` has run the table is valid (R77). -/
@[simp] theorem ensureTable_tblValid (s : State) : (ensureTable s).tblValid = true := by
  unfold ensureTable; split
  · assumption
  · rfl

/-- With the table not yet valid, `EnsureTable` stores the built one (R77). -/
theorem ensureTable_tbl_of_invalid {s : State} (h : s.tblValid = false) :
    (ensureTable s).tbl = builtTable := by
  simp [ensureTable, h]

/-- With the table valid, `EnsureTable` changes nothing (R77). -/
theorem ensureTable_of_valid {s : State} (h : s.tblValid = true) : ensureTable s = s := by
  simp [ensureTable, h]

/-- The table after `EnsureTable` is the built one, given that a valid table is. -/
theorem ensureTable_tbl {s : State} (h : TableInv s) : (ensureTable s).tbl = builtTable := by
  cases hv : s.tblValid with
  | true => rw [ensureTable_of_valid hv]; exact h hv
  | false => exact ensureTable_tbl_of_invalid hv

end Sys2Proof.Machine
end

