-- ==== Sys2Proof/Laws/Ops.lean ====
section
/-! SUPPORT. What each shared operation can do, once for each. -/

namespace Sys2Proof.Machine

/-! A body of a step: one operation after another, stopping at the first fault. -/

theorem bind_eq_ok {α β : Type} {e : Except Fault α} {f : α → Except Fault β} {b : β} :
    (e >>= f) = .ok b ↔ ∃ a, e = .ok a ∧ f a = .ok b := by
  cases e with
  | ok a => simp [bind, Except.bind]
  | error r => simp [bind, Except.bind]

theorem bind_pure_eq_ok {α β : Type} {e : Except Fault α} {f : α → β} {b : β} :
    (e >>= fun a => (pure (f a) : Except Fault β)) = .ok b ↔ ∃ a, e = .ok a ∧ b = f a := by
  rw [bind_eq_ok]
  exact exists_congr fun a => and_congr_right fun _ => by
    rw [show (pure (f a) : Except Fault β) = .ok (f a) from rfl, Except.ok.injEq, eq_comm]

/-! Ranges, overlaps and reads. -/

@[simp] theorem inRange_iff (size : Nat) (a : Word) (n : Nat) :
    inRange size a n = true ↔ RegionInRange size a n := by
  simp [inRange, RegionInRange]

@[simp] theorem overlaps_iff (a : Word) (n : Nat) (b : Word) (m : Nat) :
    overlaps a n b m = true ↔ RegionsOverlap a n b m := by
  simp [overlaps, RegionsOverlap, and_assoc]

theorem memRead_eq_ok {a : Word} {n : Nat} {s : State} {bs : Bytes} :
    memRead a n s = .ok bs ↔
      RegionInRange s.cfg.memSize a n ∧ s.mem.readBytes a.toNat n = some bs := by
  unfold memRead
  by_cases h : inRange s.cfg.memSize a n = true
  · rw [if_pos h]
    cases hb : s.mem.readBytes a.toNat n <;> simp_all
  · rw [if_neg h]
    simp_all

/-- An Engine read of a region in range with an unwritten byte is UNINIT_READ (R43). -/
theorem memRead_of_unwritten {a : Word} {n k : Nat} {s : State}
    (hr : RegionInRange s.cfg.memSize a n) (hk : k < n) (h : s.mem.read (a.toNat + k) = none) :
    memRead a n s = .error .uninitRead := by
  rw [memRead, if_pos ((inRange_iff ..).2 hr), Memory.readBytes_eq_none hk h]

theorem memWrite_eq_ok {a : Word} {bs : Bytes} {s t : State} :
    memWrite a bs s = .ok t ↔
      RegionInRange s.cfg.memSize a bs.length ∧
        t = { s with mem := s.mem.writeBytes a.toNat bs } := by
  unfold memWrite
  by_cases h : inRange s.cfg.memSize a bs.length = true
  · rw [if_pos h, Except.ok.injEq, and_iff_right ((inRange_iff _ _ _).1 h)]
    exact eq_comm
  · rw [if_neg h]
    exact iff_of_false (fun e => nomatch e) fun e => h ((inRange_iff _ _ _).2 e.1)

/-- The bytes a scramble writes. -/
def scrambled (s : State) (n : Nat) : Bytes := (List.range n).map (Config.scrambleByte s.draws)

@[simp] theorem scrambled_length (s : State) (n : Nat) : (scrambled s n).length = n := by
  simp [scrambled]

theorem memScramble_eq_ok {a : Word} {n : Nat} {s t : State} :
    memScramble a n s = .ok t ↔
      RegionInRange s.cfg.memSize a n ∧
        t = { s with draws := s.draws + 1, mem := s.mem.writeBytes a.toNat (scrambled s n) } := by
  unfold memScramble
  rw [memWrite_eq_ok]
  simp [scrambled]

/-! Steps with pre-checks. -/

theorem guarded_of_pass {gs : List Guard} {s : State} {body : Except Fault State}
    (h : firstFailing gs = none) : guarded gs s body = answer body := by
  simp [guarded, h]

theorem guarded_of_fail {gs : List Guard} {s : State} {body : Except Fault State} {g : Guard}
    (h : firstFailing gs = some g) : guarded gs s body = .next (raise g.error g.info s) := by
  simp [guarded, h]

/-- Everything a step with pre-checks can answer as a next state. -/
theorem guarded_eq_next {gs : List Guard} {s t : State} {body : Except Fault State} :
    guarded gs s body = .next t ↔
      (∃ g, firstFailing gs = some g ∧ t = raise g.error g.info s) ∨
        (firstFailing gs = none ∧ body = .ok t) := by
  unfold guarded
  cases hg : firstFailing gs with
  | some g => simp [eq_comm]
  | none =>
    cases body with
    | ok u => simp [answer]
    | error f => simp [answer]

theorem firstFailing_eq_none {gs : List Guard} :
    firstFailing gs = none ↔ ∀ g ∈ gs, g.fails = false := by
  simp [firstFailing]

/-- A failing check is one of the checks. -/
theorem firstFailing_mem {gs : List Guard} {g : Guard} (h : firstFailing gs = some g) :
    g ∈ gs ∧ g.fails = true :=
  ⟨List.mem_of_find?_eq_some h, by simpa using List.find?_some h⟩

/-! The stream. -/

/-- Everything an open can do (R85). -/
theorem streamOpen_cases (s : State) :
    (openAnswer s = .success ∧ streamOpen s = .went (emptyStream (takeOpen s))) ∨
    (∃ truncated, openAnswer s = .failure truncated ∧
      streamOpen s = .raised (raise .ioOpen 0 (refuseOpen truncated (takeOpen s)))) := by
  unfold streamOpen
  cases h : openAnswer s with
  | success => exact .inl ⟨rfl, rfl⟩
  | failure truncated => exact .inr ⟨truncated, rfl, rfl⟩

/-- Everything an append can do (R88). -/
theorem append_cases (bs : Bytes) (s : State) :
    (writeAnswer s = .success ∧ append bs s = .went (land bs (takeWrite s))) ∨
    (∃ k, writeAnswer s = .failure k ∧
      append bs s = .raised (raiseWrite (land (bs.take k) (takeWrite s)))) := by
  unfold append
  cases h : writeAnswer s with
  | success => exact .inl ⟨rfl, rfl⟩
  | failure k => exact .inr ⟨k, rfl, rfl⟩

@[simp] theorem andThen_went (s : State) (k : State → State) : (Attempt.went s).andThen k = k s := rfl

@[simp] theorem andThen_raised (s : State) (k : State → State) : (Attempt.raised s).andThen k = s := rfl

/-- `EnsureTable` asks the sink nothing. -/
@[simp] theorem writeAnswer_ensureTable (s : State) : writeAnswer (ensureTable s) = writeAnswer s := by
  simp [writeAnswer]

@[simp] theorem takeWrite_ensureTable_writes (s : State) :
    (takeWrite (ensureTable s)).writes = (takeWrite s).writes := by
  unfold takeWrite
  rw [ensureTable_writes]
  split <;> simp_all

@[simp] theorem takeWrite_ensureTable_draws (s : State) :
    (takeWrite (ensureTable s)).draws = (takeWrite s).draws := by
  unfold takeWrite
  rw [ensureTable_writes]
  split <;> simp

/-! The compressor. -/

/-- Everything Compress and its store can answer (R106, R110, R117). -/
theorem compressTo_eq_ok {x : Bytes} {k : Nat → State → State} {s t : State} :
    compressTo x k s = .ok t ↔
      (deflate s.cfg.compressor x = none ∧
        ∃ u, memScramble s.lat.ops.dstAddr s.lat.ops.dstCap.toNat s = .ok u ∧
          t = raise .compression 0 u) ∨
      (∃ z, deflate s.cfg.compressor x = some z ∧ s.lat.ops.dstCap.toNat < z.length ∧
        ∃ u, memScramble s.lat.ops.dstAddr s.lat.ops.dstCap.toNat s = .ok u ∧
          t = raise .compression (BitVec.ofNat 32 (min z.length maxCount)) u) ∨
      (∃ z, deflate s.cfg.compressor x = some z ∧ z.length ≤ s.lat.ops.dstCap.toNat ∧
        ∃ u, memWrite s.lat.ops.dstAddr z s = .ok u ∧ t = k z.length u) := by
  unfold compressTo
  cases hz : deflate s.cfg.compressor x with
  | none =>
    simp only [compressionError, bind_pure_eq_ok]
    simp
  | some z =>
    by_cases hc : s.lat.ops.dstCap.toNat < z.length
    · simp only [if_pos hc, compressionError, bind_pure_eq_ok]
      simp [hc, Nat.not_le.2 hc]
    · simp only [if_neg hc, bind_pure_eq_ok]
      simp [hc, Nat.le_of_not_lt hc]

/-- What the filtered source is: the filtered image at the latched source. -/
theorem filteredSource_eq_ok {s : State} {x : Bytes} :
    filteredSource s = .ok x ↔
      ∃ rgb, memRead s.lat.ops.srcAddr (rgbSize s.lat.ops) s = .ok rgb ∧
        x = filtered rgb s.lat.ops.width.toNat s.lat.ops.height.toNat := by
  exact bind_pure_eq_ok

end Sys2Proof.Machine
end

