-- ==== Sys2Proof/Laws/Guards.lean ====
section
/-! SUPPORT. What each pre-check tests, in the words of its rule, and when all the checks of a command
pass. -/

namespace Sys2Proof.Machine

/-! One check. -/

@[simp] theorem filterGuard_fails (ft : BitVec 3) : (filterGuard ft).fails = true ↔ ft ≠ 0 := by
  simp only [filterGuard, FilterType.ofField]
  split <;> simp_all

theorem toNat_pos_iff (w : Word) : 0 < w.toNat ↔ w ≠ 0 := by
  rw [Nat.pos_iff_ne_zero, ne_eq, ne_eq, ← BitVec.toNat_inj]
  simp

@[simp] theorem dimGuard_fails (o : OperandRegs) : (dimGuard o).fails = true ↔ ¬ ImageDimsOk o := by
  simp only [dimGuard, ImageDimsOk, toNat_pos_iff, Bool.or_eq_true, beq_iff_eq, decide_eq_true_eq]
  rw [maxCount, filteredSize, ← Nat.not_le]
  tauto

@[simp] theorem pixelDimGuard_fails (o : OperandRegs) :
    (pixelDimGuard o).fails = true ↔ ¬ PixelDimsOk o := by
  simp only [pixelDimGuard, PixelDimsOk, toNat_pos_iff, Bool.or_eq_true, beq_iff_eq,
    decide_eq_true_eq]
  rw [maxCount, pixelCount, ← Nat.not_le, ← Nat.mul_assoc]
  tauto

@[simp] theorem alignGuard_fails (o : OperandRegs) :
    (alignGuard o).fails = true ↔ o.srcAddr.toNat % 4 ≠ 0 := by
  simp only [alignGuard, bne_iff_ne, ne_eq, ← BitVec.toNat_inj]
  simp

@[simp] theorem sourceSizeGuard_fails (o : OperandRegs) (n : Nat) :
    (sourceSizeGuard o n).fails = true ↔ o.srcLen.toNat < n := by
  simp [sourceSizeGuard]

@[simp] theorem capacityGuard_fails (o : OperandRegs) (n : Nat) :
    (capacityGuard o n).fails = true ↔ o.dstCap.toNat < n := by
  simp [capacityGuard]

@[simp] theorem overlapGuard_fails (o : OperandRegs) (n : Nat) :
    (overlapGuard o n).fails = true ↔ RegionsOverlap o.srcAddr n o.dstAddr o.dstCap.toNat := by
  simp [overlapGuard]

@[simp] theorem rangeGuard_fails (s : State) (a : Word) (n : Nat) :
    (rangeGuard s a n).fails = true ↔ ¬ RegionInRange s.cfg.memSize a n := by
  rw [← inRange_iff, rangeGuard]
  cases inRange s.cfg.memSize a n <;> simp

@[simp] theorem requireOpen_fails (s : State) : (requireOpen s).fails = true ↔ s.strmOpen = false := by
  simp [requireOpen]

@[simp] theorem requireClosed_fails (s : State) :
    (requireClosed s).fails = true ↔ s.strmOpen = true := by
  simp [requireClosed]

@[simp] theorem lengthGuard_fails (n : Word) : (lengthGuard n).fails = true ↔ 0x7FFFFFFF < n.toNat := by
  rw [lengthGuard, decide_eq_true_eq, maxPayload]

/-! A list of checks. -/

theorem firstFailing_nil : firstFailing [] = none := rfl

/-- A check that fails is the first failing one of the list it heads. -/
theorem firstFailing_cons_of_fails {g : Guard} {gs : List Guard} (h : g.fails = true) :
    firstFailing (g :: gs) = some g := by
  simp [firstFailing, h]

/-- A check that passes leaves the decision to the rest. -/
theorem firstFailing_cons_of_passes {g : Guard} {gs : List Guard} (h : ¬ g.fails = true) :
    firstFailing (g :: gs) = firstFailing gs := by
  simp [firstFailing, h]

theorem firstFailing_cons_eq_none {g : Guard} {gs : List Guard} :
    firstFailing (g :: gs) = none ↔ ¬ g.fails = true ∧ firstFailing gs = none := by
  simp [firstFailing]

/-- The checks of FCOMP (R109). -/
theorem fcompGuards_pass {s : State} {ft : BitVec 3} :
    firstFailing (fcompGuards ft s) = none ↔ ft = 0 ∧ ImageOperandsOk s := by
  simp only [fcompGuards, firstFailing_cons_eq_none, firstFailing_nil, filterGuard_fails,
    dimGuard_fails, sourceSizeGuard_fails, rangeGuard_fails, overlapGuard_fails, ImageOperandsOk,
    BuffersOk, rgbSize, not_not, Nat.not_lt, ne_eq]
  tauto

/-- The checks of FILT (R103). -/
theorem filtGuards_pass {s : State} {ft : BitVec 3} :
    firstFailing (filtGuards ft s) = none ↔
      ft = 0 ∧ ImageOperandsOk s ∧ filteredSize s.lat.ops ≤ s.lat.ops.dstCap.toNat := by
  simp only [filtGuards, firstFailing_cons_eq_none, firstFailing_nil, filterGuard_fails,
    dimGuard_fails, sourceSizeGuard_fails, rangeGuard_fails, overlapGuard_fails,
    capacityGuard_fails, ImageOperandsOk, BuffersOk, rgbSize, not_not, Nat.not_lt, ne_eq]
  tauto

/-- The checks of ENCPNG at EXEC (R113). -/
theorem encpngGuards_pass {s : State} {ft : BitVec 3} :
    firstFailing (encpngGuards ft s) = none ↔ ft = 0 ∧ ImageOperandsOk s ∧ s.strmOpen = false := by
  have h : firstFailing (encpngGuards ft s) = none ↔
      firstFailing (fcompGuards ft s) = none ∧ firstFailing [requireClosed s] = none := by
    simp only [firstFailing_eq_none, encpngGuards, List.mem_append]
    constructor
    · exact fun h => ⟨fun g hg => h g (.inl hg), fun g hg => h g (.inr hg)⟩
    · rintro ⟨h1, h2⟩ g (hg | hg)
      · exact h1 g hg
      · exact h2 g hg
  rw [h, fcompGuards_pass, firstFailing_cons_eq_none, requireClosed_fails]
  simp [firstFailing_nil, and_assoc]

/-- The checks of RGB (R126). -/
theorem rgbGuards_pass {s : State} :
    firstFailing (rgbGuards s) = none ↔ PixelOperandsOk s := by
  simp only [rgbGuards, firstFailing_cons_eq_none, firstFailing_nil, pixelDimGuard_fails,
    alignGuard_fails, sourceSizeGuard_fails, rangeGuard_fails, overlapGuard_fails,
    capacityGuard_fails, PixelOperandsOk, BuffersOk, pixelCount, not_not, Nat.not_lt, ne_eq,
    Nat.mul_assoc]
  tauto

/-- The checks of WCHUNK (R96). -/
theorem wchunkGuards_pass {s : State} :
    firstFailing [lengthGuard s.lat.ops.srcLen,
      rangeGuard s s.lat.ops.srcAddr s.lat.ops.srcLen.toNat, requireOpen s] = none ↔
      s.lat.ops.srcLen.toNat ≤ 0x7FFFFFFF ∧
        RegionInRange s.cfg.memSize s.lat.ops.srcAddr s.lat.ops.srcLen.toNat ∧
        s.strmOpen = true := by
  simp only [firstFailing_cons_eq_none, firstFailing_nil, lengthGuard_fails, rangeGuard_fails,
    requireOpen_fails, not_not, Nat.not_lt, Bool.not_eq_false, and_true]

/-! Regions. -/

@[simp] theorem Region.contains_iff (r : Region) (a : Nat) :
    r.contains a = true ↔ r.start.toNat ≤ a ∧ a < r.start.toNat + r.size := by
  simp [Region.contains]

/-! Byte counts. -/

@[simp] theorem be32_length (v : Word) : (be32 v).length = 4 := rfl

@[simp] theorem chunkBytes_length (tbl : Vector Word 256) (t p : Bytes) :
    (chunkBytes tbl t p).length = 4 + t.length + p.length + 4 := by
  simp [chunkBytes, Nat.add_assoc]

end Sys2Proof.Machine
end

