-- ==== Sys2Proof/Laws/Commands.lean ====
section
/-! SUPPORT. Everything each command can answer as a next state, once for each, and what every command
leaves alone. -/

namespace Sys2Proof.Machine

/-! Answers. -/

theorem pure_eq_ok {α : Type} {a b : α} : (pure a : Except Fault α) = .ok b ↔ b = a := by
  rw [show (pure a : Except Fault α) = .ok a from rfl, Except.ok.injEq, eq_comm]

theorem answer_eq_next {e : Except Fault State} {t : State} : answer e = .next t ↔ e = .ok t := by
  cases e <;> simp [answer]

/-- The error of a failing pre-check leaves everything but the completion record as it was. -/
def Rejected (gs : List Guard) (s t : State) : Prop :=
  ∃ g, firstFailing gs = some g ∧ t = raise g.error g.info s

/-- TBLINIT (R81). -/
theorem execTblinit_eq (s : State) : execTblinit s = .next (complete (ensureTable s)) := rfl

/-- CRC (R82). -/
theorem execCrc_eq_next {s t : State} :
    execCrc s = .next t ↔
      Rejected [rangeGuard s s.lat.ops.srcAddr s.lat.ops.srcLen.toNat] s t ∨
      (RegionInRange s.cfg.memSize s.lat.ops.srcAddr s.lat.ops.srcLen.toNat ∧
        ∃ data, s.mem.readBytes s.lat.ops.srcAddr.toNat s.lat.ops.srcLen.toNat = some data ∧
          t = completeWith (crc32 (ensureTable s).tbl s.lat.ops.seed data) (ensureTable s)) := by
  unfold execCrc
  simp only [guarded_eq_next, bind_pure_eq_ok, memRead_eq_ok, firstFailing_cons_eq_none,
    firstFailing_nil, rangeGuard_fails, not_not, ensureTable_cfg, ensureTable_mem, Rejected, and_true]
  exact or_congr_right ⟨fun ⟨h, a, ⟨_, ha⟩, e⟩ => ⟨h, a, ha, e⟩, fun ⟨h, a, ha, e⟩ => ⟨h, a, ⟨h, ha⟩, e⟩⟩

/-- SOPEN (R93). -/
theorem execSopen_eq (s : State) :
    execSopen s = .next
      (if s.strmOpen then raise .streamState 1 s else (streamOpen s).andThen complete) := by
  cases h : s.strmOpen <;> simp [execSopen, guarded, firstFailing, requireClosed, h, answer]

/-- SCLOSE (R94). -/
theorem execSclose_eq (s : State) :
    execSclose s = .next
      (if s.strmOpen then complete (streamClose s) else raise .streamState 0 s) := by
  cases h : s.strmOpen <;> simp [execSclose, guarded, firstFailing, requireOpen, h, answer]

/-- WSIG (R95). -/
theorem execWsig_eq (s : State) :
    execWsig s = .next
      (if s.strmOpen then (append signature s).andThen complete else raise .streamState 0 s) := by
  cases h : s.strmOpen <;> simp [execWsig, guarded, firstFailing, requireOpen, h, answer]

/-- WCHUNK (R96). -/
theorem execWchunk_eq_next {s t : State} :
    execWchunk s = .next t ↔
      Rejected [lengthGuard s.lat.ops.srcLen,
        rangeGuard s s.lat.ops.srcAddr s.lat.ops.srcLen.toNat, requireOpen s] s t ∨
      ((s.lat.ops.srcLen.toNat ≤ 0x7FFFFFFF ∧
          RegionInRange s.cfg.memSize s.lat.ops.srcAddr s.lat.ops.srcLen.toNat ∧
          s.strmOpen = true) ∧
        ∃ p, s.mem.readBytes s.lat.ops.srcAddr.toNat s.lat.ops.srcLen.toNat = some p ∧
          t = (append (chunkBytes (ensureTable s).tbl (be32 s.lat.ops.chunkType) p)
            (ensureTable s)).andThen
              (completeWith (chunkCrc (ensureTable s).tbl (be32 s.lat.ops.chunkType) p))) := by
  unfold execWchunk
  simp only [guarded_eq_next, bind_pure_eq_ok, memRead_eq_ok, wchunkGuards_pass, ensureTable_cfg,
    ensureTable_mem, Rejected]
  exact or_congr_right
    ⟨fun ⟨h, a, ⟨_, ha⟩, e⟩ => ⟨h, a, ha, e⟩, fun ⟨h, a, ha, e⟩ => ⟨h, a, ⟨h.2.1, ha⟩, e⟩⟩

/-- A region inside one that is in range. -/
theorem RegionInRange.mono {size : Nat} {a : Word} {n m : Nat} (h : RegionInRange size a n)
    (hm : m ≤ n) : RegionInRange size a m := by
  unfold RegionInRange at *; omega

/-- The filtered scanlines of a whole image have the size of R100. -/
theorem filtered_length {rgb : Bytes} {w h : Nat} (hl : rgb.length = 3 * w * h) :
    (filtered rgb w h).length = h * (3 * w + 1) := by
  induction h generalizing rgb with
  | zero => simp [filtered]
  | succ h ih =>
    have e : 3 * w * (h + 1) = 3 * w * h + 3 * w := by ring
    have e' : (h + 1) * (3 * w + 1) = h * (3 * w + 1) + (3 * w + 1) := by ring
    have hd : (rgb.drop (3 * w)).length = 3 * w * h := by rw [List.length_drop]; omega
    rw [filtered, filterRow, List.length_append, List.length_cons, ih hd, List.length_take]
    omega

/-- The RGB bytes of `n` pixel words are `3 * n`. -/
theorem toRgb_length (order : ByteOrder) {n : Nat} {words : Bytes} (h : words.length = 4 * n) :
    (toRgb order words).length = 3 * n := by
  induction n generalizing words with
  | zero => rw [List.length_eq_zero_iff.1 h]; rfl
  | succ n ih =>
    match words, h with
    | b0 :: b1 :: b2 :: b3 :: rest, h =>
      have hr : rest.length = 4 * n := by simpa [Nat.mul_add] using h
      simp only [toRgb, List.length_append, ih hr]
      simp only [pixelToRgb, List.length_cons, List.length_nil]
      omega

/-- FILT (R103). -/
theorem execFilt_eq_next {ft : BitVec 3} {s t : State} :
    execFilt ft s = .next t ↔
      Rejected (filtGuards ft s) s t ∨
      ((ft = 0 ∧ ImageOperandsOk s ∧ filteredSize s.lat.ops ≤ s.lat.ops.dstCap.toNat) ∧
        ∃ rgb, SourceImage s rgb ∧
          t = completeWith (BitVec.ofNat 32 (filteredSize s.lat.ops)) { s with
            mem := s.mem.writeBytes s.lat.ops.dstAddr.toNat
              (filtered rgb s.lat.ops.width.toNat s.lat.ops.height.toNat) }) := by
  unfold execFilt
  simp only [guarded_eq_next, filtGuards_pass, bind_eq_ok, pure_eq_ok, memRead_eq_ok,
    memWrite_eq_ok, Rejected]
  refine or_congr_right ⟨?_, ?_⟩
  · rintro ⟨h, rgb, ⟨-, hr⟩, u, ⟨-, rfl⟩, rfl⟩
    exact ⟨h, rgb, hr, rfl⟩
  · rintro ⟨h, rgb, hr, rfl⟩
    refine ⟨h, rgb, ⟨h.2.1.2.2.1, hr⟩, _, ⟨h.2.1.2.2.2.1.mono ?_, rfl⟩, rfl⟩
    rw [filtered_length (Memory.readBytes_eq_some.1 hr).1]
    exact h.2.2

/-- Everything Compress and its store can answer as a next state: the destination scrambled, or the
compressed image stored (R106, R110, R117). -/
theorem compressTo_next {x : Bytes} {k : Nat → State → State} {s t : State}
    (h : compressTo x k s = .ok t) :
    (RegionInRange s.cfg.memSize s.lat.ops.dstAddr s.lat.ops.dstCap.toNat ∧
      ∃ info, t = raise .compression info { s with
        draws := s.draws + 1
        mem := s.mem.writeBytes s.lat.ops.dstAddr.toNat (scrambled s s.lat.ops.dstCap.toNat) }) ∨
    (∃ z, deflate s.cfg.compressor x = some z ∧ z.length ≤ s.lat.ops.dstCap.toNat ∧
      RegionInRange s.cfg.memSize s.lat.ops.dstAddr z.length ∧
      t = k z.length { s with mem := s.mem.writeBytes s.lat.ops.dstAddr.toNat z }) := by
  rcases compressTo_eq_ok.1 h with ⟨_, u, hu, rfl⟩ | ⟨z, _, _, u, hu, rfl⟩ | ⟨z, hz, hc, u, hu, rfl⟩
  · obtain ⟨hr, rfl⟩ := memScramble_eq_ok.1 hu
    exact .inl ⟨hr, _, rfl⟩
  · obtain ⟨hr, rfl⟩ := memScramble_eq_ok.1 hu
    exact .inl ⟨hr, _, rfl⟩
  · obtain ⟨hr, rfl⟩ := memWrite_eq_ok.1 hu
    exact .inr ⟨z, hz, hc, hr, rfl⟩

/-- Everything Compress and its store can do with operands that pass the checks: the destination is
scrambled, or the compressed image stored (R106, R110, R117). -/
theorem compressTo_cases {x : Bytes} {k : Nat → State → State} {s : State}
    (h : RegionInRange s.cfg.memSize s.lat.ops.dstAddr s.lat.ops.dstCap.toNat) :
    (∃ info, compressTo x k s = .ok (raise .compression info { s with
        draws := s.draws + 1
        mem := s.mem.writeBytes s.lat.ops.dstAddr.toNat (scrambled s s.lat.ops.dstCap.toNat) })) ∨
    (∃ z, deflate s.cfg.compressor x = some z ∧ z.length ≤ s.lat.ops.dstCap.toNat ∧
      compressTo x k s = .ok (k z.length
        { s with mem := s.mem.writeBytes s.lat.ops.dstAddr.toNat z })) := by
  have hm := (memScramble_eq_ok (s := s)).2 ⟨h, rfl⟩
  cases hz : deflate s.cfg.compressor x with
  | none => exact .inl ⟨0, compressTo_eq_ok.2 (.inl ⟨hz, _, hm, rfl⟩)⟩
  | some z =>
    by_cases hc : s.lat.ops.dstCap.toNat < z.length
    · exact .inl ⟨_, compressTo_eq_ok.2 (.inr (.inl ⟨z, hz, hc, _, hm, rfl⟩))⟩
    · have hc := Nat.le_of_not_lt hc
      exact .inr ⟨z, rfl, hc,
        compressTo_eq_ok.2 (.inr (.inr ⟨z, hz, hc, _, memWrite_eq_ok.2 ⟨h.mono hc, rfl⟩, rfl⟩))⟩

/-- FCOMP (R109). -/
theorem execFcomp_eq_next {ft : BitVec 3} {s t : State} :
    execFcomp ft s = .next t ↔
      Rejected (fcompGuards ft s) s t ∨
      ((ft = 0 ∧ ImageOperandsOk s) ∧ ∃ rgb, SourceImage s rgb ∧
        compressTo (filtered rgb s.lat.ops.width.toNat s.lat.ops.height.toNat)
          (fun n => completeWith (BitVec.ofNat 32 n)) s = .ok t) := by
  unfold execFcomp
  simp only [guarded_eq_next, fcompGuards_pass, bind_eq_ok, filteredSource_eq_ok, memRead_eq_ok,
    Rejected]
  refine or_congr_right ⟨?_, ?_⟩
  · rintro ⟨h, x, ⟨rgb, ⟨-, hr⟩, rfl⟩, e⟩
    exact ⟨h, rgb, hr, e⟩
  · rintro ⟨h, rgb, hr, e⟩
    exact ⟨h, _, ⟨rgb, ⟨h.2.2.2.1, hr⟩, rfl⟩, e⟩

/-- RGB (R126). -/
theorem execRgb_eq_next {s t : State} :
    execRgb s = .next t ↔
      Rejected (rgbGuards s) s t ∨
      (PixelOperandsOk s ∧
        ∃ words, s.mem.readBytes s.lat.ops.srcAddr.toNat (4 * pixelCount s.lat.ops) = some words ∧
          t = completeWith (BitVec.ofNat 32 (3 * pixelCount s.lat.ops)) { s with
            mem := s.mem.writeBytes s.lat.ops.dstAddr.toNat
              (toRgb s.cfg.pixelByteOrder words) }) := by
  unfold execRgb
  simp only [guarded_eq_next, rgbGuards_pass, bind_eq_ok, pure_eq_ok, memRead_eq_ok,
    memWrite_eq_ok, Rejected]
  refine or_congr_right ⟨?_, ?_⟩
  · rintro ⟨h, words, ⟨-, hr⟩, u, ⟨-, rfl⟩, rfl⟩
    exact ⟨h, words, hr, rfl⟩
  · rintro ⟨h, words, hr, rfl⟩
    refine ⟨h, words, ⟨?_, hr⟩, _, ⟨h.2.2.1.2.2.1.mono ?_, rfl⟩, rfl⟩
    · have := h.2.2.1.2.1
      rwa [Nat.mul_assoc] at this
    · rw [toRgb_length _ (Memory.readBytes_eq_some.1 hr).1]
      exact h.2.2.2

/-! ENCPNG, by phase. -/

/-- The EXEC step (R113). -/
theorem encExec_eq_next {ft : BitVec 3} {s t : State} :
    encExec ft s = .next t ↔
      Rejected (encpngGuards ft s) s t ∨
      ((ft = 0 ∧ ImageOperandsOk s ∧ s.strmOpen = false) ∧ t = toPhase .opening s) := by
  unfold encExec
  simp only [guarded_eq_next, encpngGuards_pass, Except.ok.injEq, Rejected]
  exact or_congr_right (and_congr_right fun _ => eq_comm)

/-- The COMPRESS phase (R117). -/
theorem encCompress_eq_ok {s t : State} :
    encCompress s = .ok t ↔
      RegionInRange s.cfg.memSize s.lat.ops.srcAddr (rgbSize s.lat.ops) ∧
      ∃ rgb, SourceImage s rgb ∧
        compressTo (filtered rgb s.lat.ops.width.toNat s.lat.ops.height.toNat) storeLength s =
          .ok t := by
  unfold encCompress
  simp only [bind_eq_ok, filteredSource_eq_ok, memRead_eq_ok]
  constructor
  · rintro ⟨x, ⟨rgb, ⟨hi, hr⟩, rfl⟩, e⟩
    exact ⟨hi, rgb, hr, e⟩
  · rintro ⟨hi, rgb, hr, e⟩
    exact ⟨_, ⟨rgb, ⟨hi, hr⟩, rfl⟩, e⟩

/-- The IDAT phase (R118). -/
theorem encIdat_eq_next {s t : State} :
    encIdat s = .next t ↔
      Rejected [lengthGuard s.zlen] s t ∨
      (s.zlen.toNat ≤ 0x7FFFFFFF ∧
        RegionInRange s.cfg.memSize s.lat.ops.dstAddr s.zlen.toNat ∧
        ∃ z, s.mem.readBytes s.lat.ops.dstAddr.toNat s.zlen.toNat = some z ∧
          t = (append (chunkBytes s.tbl tagIdat z) s).andThen (toPhase .iend)) := by
  unfold encIdat
  simp only [guarded_eq_next, bind_pure_eq_ok, memRead_eq_ok, firstFailing_cons_eq_none,
    firstFailing_nil, lengthGuard_fails, not_lt, Rejected, and_true]
  exact or_congr_right ⟨fun ⟨h, a, ⟨hi, ha⟩, e⟩ => ⟨h, hi, a, ha, e⟩,
    fun ⟨h, hi, a, ha, e⟩ => ⟨h, a, ⟨hi, ha⟩, e⟩⟩

/-- Everything ENCPNG can answer as a next state, by the phase it is at. -/
theorem execEncpng_eq_next {ft : BitVec 3} {s t : State} (h : execEncpng ft s = .next t) :
    (s.phase = .exec ∧ (Rejected (encpngGuards ft s) s t ∨
      ((ft = 0 ∧ ImageOperandsOk s ∧ s.strmOpen = false) ∧ t = toPhase .opening s))) ∨
    (s.phase = .opening ∧ t = encOpen s) ∨
    (s.phase = .sig ∧ t = encSig s) ∨
    (s.phase = .ihdr ∧ t = encIhdr s) ∨
    (s.phase = .compress ∧ RegionInRange s.cfg.memSize s.lat.ops.srcAddr (rgbSize s.lat.ops) ∧
      ∃ rgb, SourceImage s rgb ∧
        compressTo (filtered rgb s.lat.ops.width.toNat s.lat.ops.height.toNat) storeLength s =
          .ok t) ∨
    (s.phase = .idat ∧ (Rejected [lengthGuard s.zlen] s t ∨
      (s.zlen.toNat ≤ 0x7FFFFFFF ∧
        RegionInRange s.cfg.memSize s.lat.ops.dstAddr s.zlen.toNat ∧
        ∃ z, s.mem.readBytes s.lat.ops.dstAddr.toNat s.zlen.toNat = some z ∧
          t = (append (chunkBytes s.tbl tagIdat z) s).andThen (toPhase .iend)))) ∨
    (s.phase = .iend ∧ t = encIend s) ∨
    (s.phase = .closing ∧ t = encClose s) := by
  unfold execEncpng at h
  cases hp : s.phase <;> rw [hp] at h
  · cases h
  · exact .inl ⟨rfl, encExec_eq_next.1 h⟩
  · cases h; exact .inr (.inl ⟨rfl, rfl⟩)
  · cases h; exact .inr (.inr (.inl ⟨rfl, rfl⟩))
  · cases h; exact .inr (.inr (.inr (.inl ⟨rfl, rfl⟩)))
  · exact .inr (.inr (.inr (.inr (.inl ⟨rfl, encCompress_eq_ok.1 (answer_eq_next.1 h)⟩))))
  · exact .inr (.inr (.inr (.inr (.inr (.inl ⟨rfl, encIdat_eq_next.1 h⟩)))))
  · cases h; exact .inr (.inr (.inr (.inr (.inr (.inr (.inl ⟨rfl, rfl⟩))))))
  · cases h; exact .inr (.inr (.inr (.inr (.inr (.inr (.inr ⟨rfl, rfl⟩))))))

end Sys2Proof.Machine
end

