-- ==== Sys2Proof/Laws/PerInstr.lean ====
section
/-! SUPPORT. Statements made of every command as syntax, one lemma a constructor. -/

/-! `TableRow`: the word of a command lies in the command's row of spec/opcode_table.json. -/

/-- The encoded command has the bits its row fixes, the row is one of the table's, and the decoder
reads the operation and the filter field back. -/
def Sys2Proof.Laws.TableRow.Statement (i : Sys2Proof.Instr) : Prop :=
  i.tableRow.holds (Sys2Proof.encode i) = true ∧ i.tableRow ∈ Sys2Proof.opcodeTable ∧
    Sys2Proof.opField (Sys2Proof.encode i) = i.operation ∧
    Sys2Proof.filtField (Sys2Proof.encode i) = i.filterField

namespace Sys2Proof.Laws.TableRow

theorem tblinit : Statement .tblinit := by unfold Statement; decide

theorem crc : Statement .crc := by unfold Statement; decide

theorem sopen : Statement .sopen := by unfold Statement; decide

theorem sclose : Statement .sclose := by unfold Statement; decide

theorem wsig : Statement .wsig := by unfold Statement; decide

theorem wchunk : Statement .wchunk := by unfold Statement; decide

theorem filt (ft : BitVec 3) : Statement (.filt ft) := by unfold Statement; revert ft; decide

theorem fcomp (ft : BitVec 3) : Statement (.fcomp ft) := by unfold Statement; revert ft; decide

theorem encpng (ft : BitVec 3) : Statement (.encpng ft) := by unfold Statement; revert ft; decide

theorem rgb : Statement .rgb := by unfold Statement; decide

end Sys2Proof.Laws.TableRow
end

