-- ==== Sys2Proof/Tests/Slice0.lean ====
section
/-! SUPPORT. The model's own tests. Expected values are those of the spec's 95_test_vectors.md (their
numbers stand in the comments) or are written out from the rule named. A `witness_` theorem shows
operands that meet the hypotheses of the statement it is named after, one for each clause. -/

namespace Sys2Proof.Tests

open Sys2Proof Sys2Proof.Machine

-- One theorem at a time: elaborated all at once they take more memory than the check allows.
set_option Elab.async false

/-! Helpers. -/

/-- A field of the next state, if there is one. -/
def after {α : Type} (o : Host.Outcome State Fault Refusal) (f : State → α) : Option α :=
  match o with
  | .next s => some (f s)
  | .fault _ => none
  | .refused _ => none

/-- The fault a step stops with. -/
def faultOf (o : Host.Outcome State Fault Refusal) : Option Fault :=
  match o with
  | .next _ => none
  | .fault f => some f
  | .refused _ => none

/-- The refusal a step stops with. -/
def refusalOf (o : Host.Outcome State Fault Refusal) : Option Refusal :=
  match o with
  | .next _ => none
  | .fault _ => none
  | .refused r => some r

/-- The machine of the spec's vectors: 64 KiB, LE pixel words, DEFLATE_REF. -/
def vectorCfg : Config := { memSize := 0x10000, pixelByteOrder := .le, compressor := .reference }

/-- Latched operands: seed, source, destination, dimensions; the chunk type is "IEND". -/
def operands (seed src srcLen dst cap w h : Word) : OperandRegs :=
  { seed := seed, srcAddr := src, srcLen := srcLen, dstAddr := dst, dstCap := cap, width := w
    height := h, chunkType := 0x49454E44 }

/-- A command `w` accepted with the operands `o`, its EXEC step next, a sink that succeeds, and the
stream as `opened` says. -/
def running (w : Word) (o : OperandRegs) (m : Memory) (opened : Bool) : State :=
  { State.reset with
    cfg := vectorCfg
    lat := { cmd := w, ops := o }
    busy := true
    phase := .exec
    strmOpen := opened
    mem := m
    opens := [.success]
    writes := [.success, .success, .success, .success] }

/-- The RGB pixel A1 B2 C3 at address 0 (vectors F6, E1). -/
def pixel : Memory := [(0, 0xA1), (1, 0xB2), (2, 0xC3)]

/-- The operands of vectors F7 and E1. -/
def imageOperands : OperandRegs := operands 0 0 3 0x100 0x40 1 1

/-- "123456789" at 0x100 (vector C21). -/
def digits : Memory :=
  [(0x100, 0x31), (0x101, 0x32), (0x102, 0x33), (0x103, 0x34), (0x104, 0x35), (0x105, 0x36),
    (0x106, 0x37), (0x107, 0x38), (0x108, 0x39)]

/-- An idle machine whose next turns are `turns`. -/
def idleWith (turns : List Turn) : State := { State.reset with cfg := vectorCfg, script := turns }

/-- Bytes of buffer memory. -/
def bytesAt (s : State) (a n : Nat) : Option Bytes := s.mem.readBytes a n

/-! WellFormed: each ill-formed command is refused by the check (R63). -/

theorem test_wellFormed_filt : (Instr.filt 0).wellFormed = true ∧ (Instr.filt 1).wellFormed = false := by
  decide

theorem test_wellFormed_fcomp :
    (Instr.fcomp 0).wellFormed = true ∧ (Instr.fcomp 7).wellFormed = false := by
  decide

theorem test_wellFormed_encpng :
    (Instr.encpng 0).wellFormed = true ∧ (Instr.encpng 4).wellFormed = false := by
  decide

/-! Decoding: words written out from R61 and R62, RSV (21 bits), FILT (3), OP (8). -/

theorem test_decode_tblinit : decode 0b000000000000000000000_000_00000001 = .ok .tblinit := rfl

theorem test_decode_crc : decode 0b000000000000000000000_000_00000010 = .ok .crc := rfl

theorem test_decode_sopen : decode 0b000000000000000000000_000_00000011 = .ok .sopen := rfl

theorem test_decode_sclose : decode 0b000000000000000000000_000_00000100 = .ok .sclose := rfl

theorem test_decode_wsig : decode 0b000000000000000000000_000_00000101 = .ok .wsig := rfl

theorem test_decode_wchunk : decode 0b000000000000000000000_000_00000110 = .ok .wchunk := rfl

theorem test_decode_filt : decode 0b000000000000000000000_001_00000111 = .ok (.filt 1) := rfl

theorem test_decode_fcomp : decode 0b000000000000000000000_111_00001000 = .ok (.fcomp 7) := rfl

theorem test_decode_encpng : decode 0b000000000000000000000_100_00001001 = .ok (.encpng 4) := rfl

theorem test_decode_rgb : decode 0b000000000000000000000_000_00001010 = .ok .rgb := rfl

/-- D1, D2, D3: no operation. -/
theorem test_decode_no_operation :
    decode 0x00000000 = .error .noSuchOperation ∧ decode 0x0000000B = .error .noSuchOperation ∧
      decode 0x000000FF = .error .noSuchOperation := by
  exact ⟨rfl, rfl, rfl⟩

/-- D4, D5, D6, D7: reserved bits, and a filter type on an operation that has none. -/
theorem test_decode_reserved :
    decode 0x00000801 = .error .reservedBits ∧ decode 0x00000701 = .error .filterOnPlainOperation ∧
      decode 0x80000702 = .error .reservedBits ∧ decode 0x00000907 = .error .reservedBits := by
  exact ⟨rfl, rfl, rfl, rfl⟩

/-- D5: the whole word is ERRINFO of an illegal word. -/
theorem test_illegal_word :
    after (engineStep (running 0x00000701 imageOperands [] false))
      (fun s => (statusWord s, s.errInfo)) = some (0x00001016, 0x00000701) := by
  decide +kernel

/-! The commands, one Engine step each. -/

/-- C19. -/
theorem test_tblinit_status :
    after (exec .tblinit (running 1 imageOperands [] false)) (fun s => (statusWord s, s.result)) =
      some (0x00000102, 0) := by
  decide +kernel

/-- R76, entries 1, 128 and 255 of the table. -/
theorem test_tblinit_table :
    after (exec .tblinit (running 1 imageOperands [] false))
      (fun s => (s.tbl[1], s.tbl[128], s.tbl[255])) =
      some (0x77073096, 0xEDB88320, 0x2D02EF8D) := by
  decide +kernel

/-- C21. -/
theorem test_crc_digits :
    after (exec .crc (running 2 (operands 0 0x100 9 0 0 0 0) digits false))
      (fun s => (s.result, statusWord s)) = some (0xCBF43926, 0x00000102) := by
  decide +kernel

/-- C24 and C25. -/
theorem test_crc_bad_region :
    after (exec .crc (running 2 (operands 0 0xFFFF 2 0 0 0 0) [] false))
        (fun s => (statusWord s, s.errInfo)) = some (0x00001066, 0x0000FFFF) ∧
      faultOf (exec .crc (running 2 (operands 0 0x500 1 0 0 0 0) [] false)) = some .uninitRead := by
  decide +kernel

/-- K8. -/
theorem test_sopen :
    after (exec .sopen (running 3 imageOperands [] false)) (fun s => (statusWord s, s.out)) =
      some (0x00000202, []) := by
  decide +kernel

/-- K16. -/
theorem test_sopen_twice :
    after (exec .sopen (running 3 imageOperands [] true)) (fun s => (statusWord s, s.errInfo)) =
      some (0x00001286, 1) := by
  decide +kernel

/-- R94. -/
theorem test_sclose :
    after (exec .sclose (running 4 imageOperands [] true)) statusWord = some 0x00000002 := by
  decide +kernel

/-- K14. -/
theorem test_sclose_closed :
    after (exec .sclose (running 4 imageOperands [] false)) (fun s => (statusWord s, s.errInfo)) =
      some (0x00001086, 0) := by
  decide +kernel

/-- K9. -/
theorem test_wsig :
    after (exec .wsig (running 5 imageOperands [] true))
      (fun s => (s.out, s.outCount, statusWord s)) =
      some ([0x89, 0x50, 0x4E, 0x47, 0x0D, 0x0A, 0x1A, 0x0A], 8, 0x00000202) := by
  decide +kernel

/-- K19, with OUT empty before: three bytes land. -/
theorem test_wsig_failure :
    after (exec .wsig { running 5 imageOperands [] true with writes := [.failure 3] })
      (fun s => (s.out, s.outCount, statusWord s, s.errInfo)) =
      some ([0x89, 0x50, 0x4E], 3, 0x000012A6, 3) := by
  decide +kernel

/-- K10: the empty IEND chunk is K1. -/
theorem test_wchunk :
    after (exec .wchunk (running 6 (operands 0 0 0 0 0 0 0) [] true))
      (fun s => (s.out, s.result, statusWord s)) =
      some ([0x00, 0x00, 0x00, 0x00, 0x49, 0x45, 0x4E, 0x44, 0xAE, 0x42, 0x60, 0x82], 0xAE426082,
        0x00000302) := by
  decide +kernel

/-- K17. -/
theorem test_wchunk_length :
    after (exec .wchunk (running 6 (operands 0 0 0x80000000 0 0 0 0) [] true))
      (fun s => (statusWord s, s.errInfo)) = some (0x00001246, 0x80000000) := by
  decide +kernel

/-- F18: adjacent regions do not overlap. -/
theorem test_filt :
    after (exec (.filt 0) (running 7 (operands 0 0 3 3 4 1 1) pixel false))
      (fun s => (bytesAt s 3 4, s.result, statusWord s)) =
      some (some [0x00, 0xA1, 0xB2, 0xC3], 4, 0x00000002) := by
  decide +kernel

/-- F19 and F17. -/
theorem test_filt_errors :
    after (exec (.filt 1) (running 0x107 imageOperands pixel false))
        (fun s => (statusWord s, s.errInfo)) = some (0x00001026, 1) ∧
      after (exec (.filt 0) (running 7 (operands 0 0 3 2 4 1 1) pixel false))
        (fun s => (statusWord s, s.errInfo)) = some (0x00001076, 2) := by
  decide +kernel

/-- F8: the compressed image fits exactly. -/
theorem test_fcomp :
    after (exec (.fcomp 0) (running 8 (operands 0 0 3 0x100 15 1 1) pixel false))
      (fun s => (bytesAt s 0x100 15, s.result)) =
      some (some [0x78, 0x01, 0x01, 0x04, 0x00, 0xFB, 0xFF, 0x00, 0xA1, 0xB2, 0xC3, 0x04, 0x0E, 0x02,
        0x17], 15) := by
  decide +kernel

/-- F9. -/
theorem test_fcomp_too_small :
    after (exec (.fcomp 0) (running 8 (operands 0 0 3 0x100 14 1 1) pixel false))
      (fun s => (statusWord s, s.errInfo)) = some (0x000010B6, 15) := by
  decide +kernel

/-- K3: the IHDR phase. -/
theorem test_encpng_ihdr :
    after (exec (.encpng 0) { running 9 imageOperands pixel true with phase := .ihdr })
      (fun s => (s.out, s.phase)) =
      some ([0x00, 0x00, 0x00, 0x0D, 0x49, 0x48, 0x44, 0x52, 0x00, 0x00, 0x00, 0x01, 0x00, 0x00, 0x00,
        0x01, 0x08, 0x02, 0x00, 0x00, 0x00, 0x90, 0x77, 0x53, 0xDE], .compress) := by
  decide +kernel

/-- E5. -/
theorem test_encpng_open_stream :
    after (exec (.encpng 0) (running 9 imageOperands pixel true))
      (fun s => (statusWord s, s.errInfo)) = some (0x00001286, 1) := by
  decide +kernel

/-- The four bytes C3 B2 A1 00 at 0x200 (vector X6). -/
def pixelWordBytes : Memory := [(0x200, 0xC3), (0x201, 0xB2), (0x202, 0xA1), (0x203, 0x00)]

/-- X6. -/
theorem test_rgb :
    after (exec .rgb (running 10 (operands 0 0x200 4 0x300 3 1 1) pixelWordBytes false))
      (fun s => (bytesAt s 0x300 3, s.result, statusWord s)) =
      some (some [0xA1, 0xB2, 0xC3], 3, 0x00000002) := by
  decide +kernel

/-- X9. -/
theorem test_rgb_misaligned :
    after (exec .rgb (running 10 (operands 0 2 4 0x100 3 1 1) [] false))
      (fun s => (statusWord s, s.errInfo)) = some (0x00001056, 2) := by
  decide +kernel

/-! The Host's transactions. -/

/-- D10: writes to STATUS and to a reserved register change nothing. -/
theorem test_write_read_only :
    after (step (idleWith [.host (.wr .word 0x04 0xFFFFFFFF)])) statusWord = some 0 ∧
      after (step (idleWith [.host (.wr .word 0x40 7)])) (fun s => s.ops) = some OperandRegs.zero := by
  decide +kernel

/-- D9. -/
theorem test_command_dropped :
    after (step { running 9 imageOperands pixel false with script := [.host (.wr .word 0 1)] })
      (fun s => (s.ovr, s.lat.cmd, s.busy)) = some (true, 9, true) := by
  decide +kernel

/-- R47 and R70: refused accesses. -/
theorem test_refused_access :
    refusalOf (step (idleWith [.host (.rd .half 0x04)])) = some .refusedAccess ∧
      refusalOf (step (idleWith [.host (.mrd 0x10000)])) = some .refusedAccess := by
  decide +kernel

/-- R55: a Host read of the destination of a running FILT. -/
theorem test_host_race :
    faultOf (step { running 7 imageOperands pixel false with script := [.host (.mrd 0x100)] }) =
      some .hostRace := by
  decide +kernel

/-- R72: `mw32` of the word 0x00A1B2C3 in LE memory (the bytes of vector X6). -/
theorem test_mw32 :
    (HostLine.mw32 0x200 0x00A1B2C3).turns .le =
      [.host (.mwr 0x200 0xC3), .host (.mwr 0x201 0xB2), .host (.mwr 0x202 0xA1),
        .host (.mwr 0x203 0x00)] := by
  decide +kernel

/-- R71, R72: `cmd ENCPNG, filt=1` and `wrtag IHDR`. -/
theorem test_host_lines :
    (HostLine.cmd (.encpng 1)).turns .le = [.host (.wr .word 0x00 0x00000109)] ∧
      (HostLine.wrtag 0x49 0x48 0x44 0x52).turns .le = [.host (.wr .word 0x28 0x49484452)] := by
  decide +kernel

/-- A2 and Z0. -/
theorem test_zlib :
    adler32 [0x31, 0x32, 0x33, 0x34, 0x35, 0x36, 0x37, 0x38, 0x39] = 0x091E01DE ∧
      deflateRef [] = [0x78, 0x01, 0x01, 0x00, 0x00, 0xFF, 0xFF, 0x00, 0x00, 0x00, 0x01] := by
  decide +kernel

/-- RFC 1951's fixed code: the body 4B 04 00 is the literal "a" and the end symbol. -/
theorem test_inflate_fixed : inflate [0x4B, 0x04, 0x00] = some [0x61] := by
  decide +kernel

/-! Witnesses: states and operands that meet the hypotheses of the statements. -/

/-- The running ENCPNG of vector E1 at a phase. -/
def encoding (p : Phase) (opened : Bool) : State :=
  { running 9 imageOperands pixel opened with phase := p }

/-- The operands of E1 pass the image checks. -/
theorem imageOperandsOk_vector (p : Phase) (opened : Bool) : ImageOperandsOk (encoding p opened) := by
  unfold ImageOperandsOk ImageDimsOk BuffersOk RegionInRange RegionsOverlap
  cases p <;> cases opened <;> decide

/-- The source image of E1. -/
theorem sourceImage_vector (p : Phase) (opened : Bool) :
    SourceImage (encoding p opened) [0xA1, 0xB2, 0xC3] := by
  unfold SourceImage
  cases p <;> cases opened <;> decide

/-- What DEFLATE_REF gives for it (vector Z1). -/
def vectorZ : Bytes :=
  [0x78, 0x01, 0x01, 0x04, 0x00, 0xFB, 0xFF, 0x00, 0xA1, 0xB2, 0xC3, 0x04, 0x0E, 0x02, 0x17]

theorem deflate_vector :
    deflate vectorCfg.compressor (filtered [0xA1, 0xB2, 0xC3] 1 1) = some vectorZ := by
  decide +kernel

/-- A destination that begins where the source ends and ends where memory ends. -/
def tightOperands : OperandRegs := operands 0 0 3 3 0xFFFD 1 1

/-- A destination that holds one byte less than FILT needs. -/
def smallOperands : OperandRegs := operands 0 0 3 0x100 3 1 1

theorem witness_RegisterReadsReturnTheRegisters :
    (idleWith [.host (.rd .word 0x30)]).script = .host (.rd .word 0x30) :: [] ∧
      (0x30 : BitVec 8).toNat % 4 = 0 ∧
      (idleWith [.host (.rd .word 0xFC)]).script = .host (.rd .word 0xFC) :: [] ∧
      (0xFC : BitVec 8).toNat % 4 = 0 := by
  decide

theorem witness_RegisterWritesReachOnlyTheOperands :
    (idleWith [.host (.wr .word 0x28 7)]).script = .host (.wr .word 0x28 7) :: [] ∧
      (0x28 : BitVec 8).toNat % 4 = 0 ∧ (0x28 : BitVec 8) ≠ 0 ∧
      (idleWith [.host (.wr .word 0x04 7)]).script = .host (.wr .word 0x04 7) :: [] ∧
      (0x04 : BitVec 8).toNat % 4 = 0 ∧ (0x04 : BitVec 8) ≠ 0 := by
  decide

theorem witness_ResetClearsTheDeviceAndKeepsOutAndMem :
    ({ encoding .idat true with script := [.host .reset] } : State).script = .host .reset :: [] := by
  decide

theorem witness_HostMemoryAccessIsPerByte :
    (idleWith [.host (.mwr 0xFFFF 1)]).busy = false ∧
      (0xFFFF : Word).toNat < (idleWith [.host (.mwr 0xFFFF 1)]).cfg.memSize ∧
      (idleWith [.host (.mwr 0xFFFF 1)]).script = .host (.mwr 0xFFFF 1) :: [] ∧
      ({ idleWith [.host (.mrd 2)] with mem := pixel } : State).busy = false ∧
      (2 : Word).toNat < ({ idleWith [.host (.mrd 2)] with mem := pixel } : State).cfg.memSize ∧
      ({ idleWith [.host (.mrd 2)] with mem := pixel } : State).mem.read 2 = some 0xC3 ∧
      (idleWith [.host (.mrd 0)]).script = .host (.mrd 0) :: [] ∧
      (idleWith [.host (.mrd 0)]).mem.read (0 : Word).toNat = none := by
  decide

theorem witness_BadHostAccessesAreRefused :
    (AccessWidth.byte ≠ .word ∨ (0x04 : BitVec 8).toNat % 4 ≠ 0) ∧
      (AccessWidth.word ≠ .word ∨ (0x06 : BitVec 8).toNat % 4 ≠ 0) ∧
      (idleWith [.host (.rd .byte 0x04)]).script = .host (.rd .byte 0x04) :: [] ∧
      (idleWith [.host (.wr .word 0x06 1)]).script = .host (.wr .word 0x06 1) :: [] ∧
      (idleWith [.host (.mrd 0x10000)]).cfg.memSize ≤ (0x10000 : Word).toNat ∧
      (idleWith [.host (.mrd 0x10000)]).script = .host (.mrd 0x10000) :: [] ∧
      (idleWith [.host (.mwr 0x10000 1)]).script = .host (.mwr 0x10000 1) :: [] := by
  decide

/-- The last source byte, the last destination byte, and the byte after each; and an illegal word. -/
theorem witness_HostAccessToARunningCommandsRegionsIsARace :
    (encoding .exec false).busy = true ∧
      decode (encoding .exec false).lat.cmd = .ok (.encpng 0) ∧
      (0x140 : Word).toNat < (encoding .exec false).cfg.memSize ∧
      (0 ≤ (2 : Word).toNat ∧ (2 : Word).toNat < 0 + 3 * 1 * 1) ∧
      ¬ (0 ≤ (3 : Word).toNat ∧ (3 : Word).toNat < 0 + 3 * 1 * 1) ∧
      (0x100 ≤ (0x13F : Word).toNat ∧ (0x13F : Word).toNat < 0x100 + 0x40) ∧
      ¬ (0x100 ≤ (0x140 : Word).toNat ∧ (0x140 : Word).toNat < 0x100 + 0x40) ∧
      (running 0x0B imageOperands pixel false).busy = true ∧
      decode (running 0x0B imageOperands pixel false).lat.cmd = .error .noSuchOperation := by
  exact ⟨rfl, rfl, by decide, by decide, by decide, by decide, by decide, rfl, rfl⟩

/-- The tests of R65 at the ends of their ranges. -/
theorem witness_ExecStepDecodesByTheTestsOfR65 :
    (encoding .exec false).phase = .exec ∧
      0x800 / 2048 ≠ 0 ∧ 0x0B ≤ 0x0B % 256 ∧ 0x100 % 256 = 0 ∧
      (0x70A % 256 ≠ 7 ∧ 0x70A % 256 ≠ 8 ∧ 0x70A % 256 ≠ 9 ∧ 0x70A / 256 % 8 ≠ 0) ∧
      (0x707 / 2048 = 0 ∧ 0x707 % 256 = 7 ∧ 0x707 / 256 % 8 ≠ 0) ∧
      (0x00A / 2048 = 0 ∧ 0x00A / 256 % 8 = 0 ∧ 0x00A % 256 = 0x0A) := by
  decide

theorem witness_EngineTurnRunsTheDecodedCommand :
    (encoding .sig true).busy = true ∧ (encoding .sig true).script.head? = none ∧
      decode (encoding .sig true).lat.cmd = .ok (.encpng 0) ∧
      ({ encoding .exec true with script := [.engine] } : State).script.head? = some .engine := by
  exact ⟨rfl, rfl, rfl, rfl⟩

theorem witness_FetchedWordIsRunByTheNextStep :
    decodeTableWord 32 0x0000000A = some .rgb ∧ decodeTableWord 16 0x00070709 = some (.encpng 7) := by
  exact ⟨rfl, rfl⟩

theorem witness_CommandWrittenWhileIdleIsAccepted :
    (idleWith [.host (.wr .word 0 0xFFFFFFFF)]).busy = false ∧
      (idleWith [.host (.wr .word 0 0xFFFFFFFF)]).script =
        .host (.wr .word 0 0xFFFFFFFF) :: [] := by
  decide

theorem witness_CommandWrittenWhileBusyIsDropped :
    ({ encoding .idat true with script := [.host (.wr .word 0 1)] } : State).busy = true ∧
      ({ encoding .idat true with script := [.host (.wr .word 0 1)] } : State).script =
        .host (.wr .word 0 1) :: [] := by
  decide

/-- C23 (the region ends at MEM_SIZE) and C22 (no bytes, beyond MEM_SIZE). -/
theorem witness_CrcGivesTheChecksumOfTheRegion :
    TableInv (running 2 (operands 0 0xFFFE 2 0 0 0 0) [(0xFFFE, 0), (0xFFFF, 0)] false) ∧
      RegionInRange 0x10000 0xFFFE (2 : Word).toNat ∧
      Memory.readBytes [(0xFFFE, 0), (0xFFFF, 0)] 0xFFFE 2 = some [0, 0] ∧
      RegionInRange 0x10000 0xFFFFFFFF (0 : Word).toNat ∧
      Memory.readBytes [] 0xFFFFFFFF 0 = some [] := by
  exact ⟨fun h => (nomatch h), .inr (by decide), rfl, .inl rfl, rfl⟩

/-- C24 and C25, WCHUNK with its stream open, FILT with a destination that just fits, and the last byte
of E1's payload: of each region the last byte is unwritten. -/
theorem witness_BadReadRegionsStop :
    ¬ RegionInRange 0x10000 0xFFFF (2 : Word).toNat ∧
      (RegionInRange 0x10000 0xFFFF (1 : Word).toNat ∧ 0 < (1 : Word).toNat ∧
        Memory.read [] ((0xFFFF : Word).toNat + 0) = none) ∧
      ((1 : Word).toNat ≤ 0x7FFFFFFF ∧
        (running 6 (operands 0 0xFFFF 1 0 0 0 0) [] true).strmOpen = true) ∧
      (2 < 3 * 1 * 1 ∧ Memory.read [(0, 0xA1), (1, 0xB2)] ((0 : Word).toNat + 2) = none ∧
        1 * (3 * 1 + 1) ≤ (4 : Word).toNat ∧ (encoding .compress true).phase = .compress) ∧
      (3 < 4 * (1 * 1) ∧ Memory.read [(0x200, 0)] ((0x200 : Word).toNat + 3) = none) ∧
      ((encoding .idat true).phase = .idat ∧ (15 : Word).toNat ≤ 0x7FFFFFFF ∧
        RegionInRange 0x10000 0x100 (15 : Word).toNat ∧ 14 < (15 : Word).toNat ∧
        (encoding .idat true).mem.read ((0x100 : Word).toNat + 14) = none) := by
  unfold RegionInRange
  decide

/-- The operands of the image and the pixel clause. -/
theorem witness_BadReadRegionsStop_operands :
    ImageOperandsOk (running 7 (operands 0 0 3 0x100 4 1 1) [(0, 0xA1), (1, 0xB2)] false) ∧
      ImageOperandsOk { encoding .compress true with mem := [(0, 0xA1), (1, 0xB2)] } ∧
      PixelOperandsOk (running 10 (operands 0 0x200 4 0x204 3 1 1) [(0x200, 0)] false) := by
  refine ⟨?_, imageOperandsOk_vector .compress true, ?_⟩
  · unfold ImageOperandsOk ImageDimsOk BuffersOk RegionInRange RegionsOverlap
    decide
  · unfold PixelOperandsOk PixelDimsOk BuffersOk RegionInRange RegionsOverlap
    decide

theorem witness_ChecksumLaws : TableInv (encoding .exec false) ∧ TableInv (ensureTable State.reset) := by
  exact ⟨fun h => (nomatch h), fun _ => rfl⟩

theorem witness_SopenOpensTheStream :
    (encoding .exec false).strmOpen = false ∧ openAnswer (encoding .exec false) = .success := by
  decide

theorem witness_SopenErrors :
    (encoding .exec true).strmOpen = true ∧
      ({ encoding .exec false with opens := [.failure true] } : State).strmOpen = false ∧
      openAnswer { encoding .exec false with opens := [.failure true] } = .failure true := by
  decide

theorem witness_ScloseClosesTheStream :
    (encoding .exec true).strmOpen = true ∧ (encoding .exec false).strmOpen = false := by
  decide

theorem witness_WsigAppendsTheSignature :
    (encoding .exec true).strmOpen = true ∧ writeAnswer (encoding .exec true) = .success ∧
      writeAnswer { encoding .exec true with writes := [.failure 8] } = .failure 8 ∧
      (encoding .exec false).strmOpen = false := by
  decide

/-- K6: the payload "ab". -/
theorem witness_WchunkAppendsTheChunk :
    TableInv (running 6 (operands 0 0xFFFE 2 0 0 0 0) [(0xFFFE, 0x61), (0xFFFF, 0x62)] true) ∧
      (2 : Word).toNat ≤ 0x7FFFFFFF ∧ RegionInRange 0x10000 0xFFFE (2 : Word).toNat ∧
      Memory.readBytes [(0xFFFE, 0x61), (0xFFFF, 0x62)] 0xFFFE 2 = some [0x61, 0x62] ∧
      writeAnswer (running 6 (operands 0 0xFFFE 2 0 0 0 0) [] true) = .success := by
  exact ⟨fun h => (nomatch h), by decide, .inr (by decide), rfl, rfl⟩

/-- The limits of R92 and of the region, and a closed stream. -/
theorem witness_WchunkPreCheckErrors :
    0x7FFFFFFF < (0x80000000 : Word).toNat ∧
      ((0x7FFFFFFF : Word).toNat ≤ 0x7FFFFFFF ∧
        ¬ RegionInRange 0x10000 0 (0x7FFFFFFF : Word).toNat) ∧
      ((4 : Word).toNat ≤ 0x7FFFFFFF ∧ RegionInRange 0x10000 0xFFFC (4 : Word).toNat ∧
        (encoding .exec false).strmOpen = false) := by
  unfold RegionInRange
  decide

theorem witness_WchunkWriteFailureLandsAPrefix :
    TableInv (running 6 (operands 0 0 3 0 0 0 0) pixel true) ∧
      (running 6 (operands 0 0 3 0 0 0 0) pixel true).strmOpen = true ∧
      (3 : Word).toNat ≤ 0x7FFFFFFF ∧ RegionInRange 0x10000 0 (3 : Word).toNat ∧
      pixel.readBytes 0 3 = some [0xA1, 0xB2, 0xC3] ∧
      writeAnswer { running 6 (operands 0 0 3 0 0 0 0) pixel true with writes := [.failure 15] } =
        .failure 15 := by
  exact ⟨fun h => (nomatch h), rfl, by decide, .inr (by decide), by decide, rfl⟩

/-- F3. -/
theorem witness_FilteredScanlineBytes :
    ([0xFF, 0, 0, 0, 0xFF, 0, 0, 0, 0xFF, 0xFF, 0xFF, 0xFF] : Bytes).length = 3 * 2 * 2 ∧
      (0 : Nat) < 2 * (3 * 2 + 1) ∧ 0 % (3 * 2 + 1) = 0 ∧ (13 : Nat) < 2 * (3 * 2 + 1) ∧
      13 % (3 * 2 + 1) ≠ 0 := by
  decide

/-- F18 with the largest destination: adjacent to the source and up to MEM_SIZE. -/
theorem witness_FiltWritesTheFilteredScanlines :
    ImageOperandsOk (running 7 tightOperands pixel false) ∧
      1 * (3 * 1 + 1) ≤ (0xFFFD : Word).toNat ∧
      SourceImage (running 7 tightOperands pixel false) [0xA1, 0xB2, 0xC3] := by
  unfold ImageOperandsOk ImageDimsOk BuffersOk RegionInRange RegionsOverlap SourceImage
  decide

/-- A witness for each error: F19, F13, F15, F14, a destination one byte too far, F16, F17 and E5. -/
theorem witness_ImageCommandErrorsInOrder :
    (1 : BitVec 3) ≠ 0 ∧
      ¬ ImageDimsOk (operands 0 0 3 0x100 4 0x55555555 1) ∧
      (ImageDimsOk (operands 0 0 2 0x100 4 1 1) ∧ (2 : Word).toNat < 3 * 1 * 1) ∧
      (ImageDimsOk (operands 0 0 0xFFFFFFFF 0x100 4 0x55555554 1) ∧
        3 * 0x55555554 * 1 ≤ (0xFFFFFFFF : Word).toNat ∧
        ¬ RegionInRange 0x10000 0 (3 * 0x55555554 * 1)) ∧
      (ImageDimsOk (operands 0 0 3 3 0xFFFE 1 1) ∧ 3 * 1 * 1 ≤ (3 : Word).toNat ∧
        RegionInRange 0x10000 0 (3 * 1 * 1) ∧ ¬ RegionInRange 0x10000 3 (0xFFFE : Word).toNat) ∧
      (ImageDimsOk smallOperands ∧ RegionInRange 0x10000 0x100 (3 : Word).toNat ∧
        (3 : Word).toNat < 1 * (3 * 1 + 1)) ∧
      (ImageDimsOk (operands 0 0 3 2 4 1 1) ∧ RegionInRange 0x10000 2 (4 : Word).toNat ∧
        1 * (3 * 1 + 1) ≤ (4 : Word).toNat ∧ RegionsOverlap 0 (3 * 1 * 1) 2 (4 : Word).toNat) ∧
      (encoding .exec true).strmOpen = true ∧ (encoding .exec true).phase = .exec := by
  unfold ImageDimsOk RegionInRange RegionsOverlap
  decide

/-- The operands of the last clause. -/
theorem witness_ImageCommandErrorsInOrder_stream : ImageOperandsOk (encoding .exec true) :=
  imageOperandsOk_vector .exec true

/-- F8: the image fits exactly. -/
theorem witness_FcompWritesTheCompressedImage :
    ImageOperandsOk (running 8 (operands 0 0 3 0x100 15 1 1) pixel false) ∧
      SourceImage (running 8 (operands 0 0 3 0x100 15 1 1) pixel false) [0xA1, 0xB2, 0xC3] ∧
      deflate vectorCfg.compressor (filtered [0xA1, 0xB2, 0xC3] 1 1) = some vectorZ ∧
      vectorZ.length ≤ (15 : Word).toNat := by
  refine ⟨?_, ?_, deflate_vector, by decide⟩
  · unfold ImageOperandsOk ImageDimsOk BuffersOk RegionInRange RegionsOverlap
    decide
  · unfold SourceImage
    decide

/-- F9, and the same destination in ENCPNG's COMPRESS phase. -/
theorem witness_CompressionErrorScramblesTheDestination :
    ImageOperandsOk (running 8 (operands 0 0 3 0x100 14 1 1) pixel false) ∧
      SourceImage (running 8 (operands 0 0 3 0x100 14 1 1) pixel false) [0xA1, 0xB2, 0xC3] ∧
      (∀ z, deflate vectorCfg.compressor (filtered [0xA1, 0xB2, 0xC3] 1 1) = some z →
        (14 : Word).toNat < z.length) ∧
      (encoding .compress true).phase = .compress := by
  refine ⟨?_, ?_, fun z hz => ?_, rfl⟩
  · unfold ImageOperandsOk ImageDimsOk BuffersOk RegionInRange RegionsOverlap
    decide
  · unfold SourceImage
    decide
  · rw [deflate_vector, Option.some.injEq] at hz
    subst hz
    decide

theorem witness_DeflateGivesAZlibStreamOfItsInput :
    deflate .reference (filtered [0xA1, 0xB2, 0xC3] 1 1) = some vectorZ := deflate_vector

theorem witness_EncpngStartsAndOpensTheStream :
    (encoding .exec false).phase = .exec ∧ (encoding .exec false).strmOpen = false ∧
      (encoding .opening false).phase = .opening ∧
      openAnswer (encoding .opening false) = .success ∧
      openAnswer { encoding .opening false with opens := [.failure false] } = .failure false := by
  decide

theorem witness_EncpngStartsAndOpensTheStream_operands : ImageOperandsOk (encoding .exec false) :=
  imageOperandsOk_vector .exec false

/-- The three phases, with a sink that succeeds and one that lands every byte and fails. -/
theorem witness_EncpngAppendsSignatureIhdrAndIend :
    TableInv (encoding .sig true) ∧ (encoding .sig true).phase = .sig ∧
      (encoding .ihdr true).phase = .ihdr ∧ (encoding .iend true).phase = .iend ∧
      TableInv (ensureTable (encoding .iend true)) ∧
      (ensureTable (encoding .iend true)).tblValid = true ∧
      writeAnswer (encoding .sig true) = .success ∧
      writeAnswer { encoding .ihdr true with writes := [.failure 25] } = .failure 25 := by
  exact ⟨fun h => (nomatch h), rfl, rfl, rfl, fun _ => rfl, rfl, rfl, rfl⟩

theorem witness_EncpngCompressesIntoTheDestination :
    (encoding .compress true).phase = .compress ∧ ImageOperandsOk (encoding .compress true) ∧
      SourceImage (encoding .compress true) [0xA1, 0xB2, 0xC3] ∧
      deflate vectorCfg.compressor (filtered [0xA1, 0xB2, 0xC3] 1 1) = some vectorZ ∧
      vectorZ.length ≤ (encoding .compress true).lat.ops.dstCap.toNat :=
  ⟨rfl, imageOperandsOk_vector _ _, sourceImage_vector _ _, deflate_vector, by decide⟩

/-- The limit of R92, and a payload of two bytes. -/
theorem witness_EncpngAppendsIdat :
    (encoding .idat true).phase = .idat ∧ 0x7FFFFFFF < (0x80000000 : Word).toNat ∧
      (2 : Word).toNat ≤ 0x7FFFFFFF ∧ RegionInRange 0x10000 0x100 (2 : Word).toNat ∧
      Memory.readBytes [(0x100, 0x78), (0x101, 0x01)] 0x100 2 = some [0x78, 0x01] ∧
      writeAnswer (encoding .idat true) = .success ∧
      writeAnswer { encoding .idat true with writes := [.failure 0] } = .failure 0 := by
  exact ⟨rfl, by decide, by decide, .inr (by decide), rfl, rfl, rfl⟩

/-- ENCPNG of vector E1 before its CLOSE phase. -/
def closingState : State :=
  { encoding .closing true with
    tblValid := true
    tbl := builtTable
    mem := pixel.writeBytes 0x100 vectorZ
    zlen := 15
    out := pngFile builtTable 1 1 vectorZ
    outCount := 72 }

theorem witness_EncpngClosesAndCompletes :
    closingState.phase = .closing ∧ closingState.busy = true ∧ Inv closingState := by
  refine ⟨rfl, rfl, ⟨?_, by decide⟩, fun _ => rfl, ?_, fun _ => by decide +kernel, fun _ _ => ⟨rfl, ?_,
    rfl, rfl, vectorZ, ⟨⟨[0xA1, 0xB2, 0xC3], ?_, deflate_vector⟩, by decide, ?_, rfl⟩, rfl⟩⟩
  · decide
  · unfold StatusInv
    decide
  · exact imageOperandsOk_vector .closing true
  · unfold SourceImage
    decide
  · decide

/-- An open that fails, and an append that fails. -/
theorem witness_EncpngErrorKeepsPhaseAndStream :
    (encoding .opening false).err = false ∧
      after (exec (.encpng 0) { encoding .opening false with opens := [.failure true] })
        (fun t => t.err) = some true ∧
      after (exec (.encpng 0) { encoding .sig true with writes := [.failure 3] })
        (fun t => t.err) = some true := by
  decide +kernel

theorem witness_EncpngWritesThePngFile :
    (encoding .exec false).busy = true ∧ (encoding .exec false).phase = .exec ∧
      (encoding .exec false).script = [] ∧
      decode (encoding .exec false).lat.cmd = .ok (.encpng 0) ∧
      TableInv (encoding .exec false) ∧ (encoding .exec false).strmOpen = false ∧
      ImageOperandsOk (encoding .exec false) ∧
      SourceImage (encoding .exec false) [0xA1, 0xB2, 0xC3] ∧
      deflate vectorCfg.compressor (filtered [0xA1, 0xB2, 0xC3] 1 1) = some vectorZ ∧
      vectorZ.length ≤ (encoding .exec false).lat.ops.dstCap.toNat ∧
      vectorZ.length ≤ 0x7FFFFFFF ∧ (encoding .exec false).opens = .success :: [] ∧
      (encoding .exec false).writes = .success :: .success :: .success :: .success :: [] :=
  ⟨rfl, rfl, rfl, rfl, fun h => (nomatch h), rfl, imageOperandsOk_vector _ _, sourceImage_vector _ _,
    deflate_vector, by decide, by decide, rfl, rfl⟩

/-- The second machine has its destination elsewhere, next to the source and up to MEM_SIZE. -/
theorem witness_EncpngIsIdempotent :
    (encoding .exec false).err = false ∧ (running 9 tightOperands pixel false).busy = true ∧
      (running 9 tightOperands pixel false).script = [] ∧
      TableInv (running 9 tightOperands pixel false) ∧
      (encoding .exec false).lat.ops.width = (running 9 tightOperands pixel false).lat.ops.width ∧
      SourceImage (running 9 tightOperands pixel false) [0xA1, 0xB2, 0xC3] ∧
      after (runSteps 8 (encoding .exec false)) (fun t => t.err) = some false ∧
      after (runSteps 8 (running 9 tightOperands pixel false)) (fun t => t.err) = some false := by
  refine ⟨rfl, rfl, rfl, fun h => (nomatch h), rfl, ?_, ?_, ?_⟩
  · unfold SourceImage
    decide
  · decide +kernel
  · decide +kernel

/-- X6, with the destination next to the source. -/
theorem witness_RgbWritesTheConvertedPixels :
    PixelOperandsOk (running 10 (operands 0 0x200 4 0x204 3 1 1) pixelWordBytes false) ∧
      pixelWordBytes.readBytes 0x200 (4 * (1 * 1)) = some [0xC3, 0xB2, 0xA1, 0x00] := by
  unfold PixelOperandsOk PixelDimsOk BuffersOk RegionInRange RegionsOverlap
  decide

theorem witness_RgbLanesAreIndependent :
    ([0, 1, 2, 3, 4, 5, 6, 7] : Bytes).length = 4 * 2 ∧ 1 < 2 := by
  decide

/-- X10, X9, a declared size one byte short, a source one byte too far, X11 and X12. -/
theorem witness_RgbErrorsInOrder :
    ¬ PixelDimsOk (operands 0 2 4 0x100 3 0x40000000 1) ∧
      (PixelDimsOk (operands 0 2 4 0x100 3 1 1) ∧ (2 : Word).toNat % 4 ≠ 0) ∧
      (PixelDimsOk (operands 0 0 3 0x100 3 1 1) ∧ (0 : Word).toNat % 4 = 0 ∧
        (3 : Word).toNat < 4 * (1 * 1)) ∧
      (PixelDimsOk (operands 0 0xFFFC 8 0x100 6 2 1) ∧ (0xFFFC : Word).toNat % 4 = 0 ∧
        ¬ RegionInRange 0x10000 0xFFFC (4 * (2 * 1))) ∧
      (PixelDimsOk (operands 0 0 4 0x100 2 1 1) ∧ 4 * (1 * 1) ≤ (4 : Word).toNat ∧
        RegionInRange 0x10000 0 (4 * (1 * 1)) ∧ (2 : Word).toNat < 3 * (1 * 1)) ∧
      (RegionInRange 0x10000 2 (3 : Word).toNat ∧ 3 * (1 * 1) ≤ (3 : Word).toNat ∧
        RegionsOverlap 0 (4 * (1 * 1)) 2 (3 : Word).toNat) := by
  unfold PixelDimsOk RegionInRange RegionsOverlap
  decide

/-- D2: an illegal word. -/
theorem witness_PreCheckErrorsArePrecise :
    (running 0x0B imageOperands [] false).errCode = none ∧
      after (engineStep (running 0x0B imageOperands [] false)) (fun t => t.errCode) =
        some (some .illegalCmd) ∧ DevError.illegalCmd.isPreCheck = true := by
  decide +kernel

theorem witness_CommandsWriteNoOperandRegister :
    after (exec .crc (running 2 (operands 5 0 0 0 0 0 0) [] false)) (fun t => t.ops) =
      some OperandRegs.zero := by
  decide +kernel

/-- A command without a destination, an address below the destination, and the one after it. -/
theorem witness_CommandsStoreInsideTheirDestinationOnly :
    Instr.crc ∈ ([.tblinit, .crc, .sopen, .sclose, .wsig, .wchunk] : List Instr) ∧
      2 < (running 7 tightOperands pixel false).lat.ops.dstAddr.toNat ∧
      (running 7 tightOperands pixel false).lat.ops.dstAddr.toNat +
        (running 7 tightOperands pixel false).lat.ops.dstCap.toNat ≤ 0x10000 ∧
      after (exec (.filt 0) (running 7 tightOperands pixel false)) (fun t => t.busy) = some false := by
  decide +kernel

theorem witness_ResultChangesOnlyOnSuccess :
    after (exec .crc (running 2 (operands 5 0 0 0 0 0 0) [] false)) (fun t => t.result) = some 5 ∧
      (5 : Word) ≠ (running 2 (operands 5 0 0 0 0 0 0) [] false).result := by
  decide +kernel

theorem witness_OutputGrowsOnlyAtItsEnd :
    after (exec .wsig (running 5 imageOperands [] true)) (fun t => t.out.length) = some 8 ∧
      Instr.wsig ≠ .sopen ∧ (running 5 imageOperands [] true).phase ≠ .opening := by
  decide +kernel

theorem witness_TableStaysUntilReset :
    after (step (ensureTable (running 1 imageOperands [] false))) (fun t => t.tblValid) = some true ∧
      (ensureTable (running 1 imageOperands [] false)).script = [] ∧
      (ensureTable (running 1 imageOperands [] false)).tblValid = true := by
  decide +kernel

theorem witness_CommandsButEncpngTakeOneStep :
    after (exec .tblinit (running 1 imageOperands [] false)) (fun t => t.busy) = some false ∧
      (∀ ft, Instr.tblinit ≠ .encpng ft) := by
  exact ⟨by decide +kernel, fun ft h => nomatch h⟩

theorem witness_EveryCommandEndsWithinEightSteps :
    (encoding .exec false).busy = true ∧ (encoding .exec false).phase = .exec ∧
      (encoding .exec false).script = [] ∧
      faultOf (runSteps 8 { encoding .exec false with mem := [] }) = some .uninitRead := by
  exact ⟨rfl, rfl, rfl, by decide +kernel⟩

/-- A running ENCPNG at its EXEC step meets the invariant, and so do the parts of it. -/
theorem inv_vector : Inv (encoding .exec false) := by
  refine ⟨⟨by decide, by decide⟩, fun h => (nomatch h), ?_, fun h => (nomatch h),
    fun _ h => absurd rfl h⟩
  unfold StatusInv
  decide

theorem witness_StepKeepsMemoryCanonical :
    MemoryInv (encoding .exec false) ∧
      after (step (encoding .exec false)) (fun t => t.phase) = some .opening :=
  ⟨inv_vector.1, by decide +kernel⟩

theorem witness_StepKeepsTheTableBuilt :
    TableInv (encoding .exec false) ∧
      after (step (encoding .exec false)) (fun t => t.phase) = some .opening :=
  ⟨inv_vector.2.1, by decide +kernel⟩

theorem witness_StepKeepsTheStatusConsistent :
    StatusInv (encoding .exec false) ∧
      after (step (encoding .exec false)) (fun t => t.phase) = some .opening :=
  ⟨inv_vector.2.2.1, by decide +kernel⟩

/-- The invariant also at the SIG phase, where it speaks of what the earlier phases did. -/
theorem witness_StepKeepsTheInvariant :
    Inv (encoding .exec false) ∧ Inv (encoding .sig true) ∧
      after (step (encoding .sig true)) (fun t => t.phase) = some .ihdr := by
  refine ⟨inv_vector, ⟨inv_vector.1, fun h => (nomatch h), ?_, fun _ => rfl,
    fun _ _ => ⟨rfl, imageOperandsOk_vector _ _, rfl, rfl⟩⟩, by decide +kernel⟩
  unfold StatusInv
  decide

end Sys2Proof.Tests
end

/-! SUPPORT. What one step of either agent can do, said once: a Host transaction, the work of a command
before it ends, and the ways it ends. The invariants are derived from these. -/

namespace Sys2Proof.Machine

/-! One step. -/

/-- Everything a step can answer as a next state: a Host transaction, the Engine's step, or nothing but
the turn taken (R53, R75). -/
theorem step_next {s t : State} (h : step s = .next t) :
    (∃ x rest, s.script = .host x :: rest ∧ hostStep x (takeTurn s) = .next t) ∨
      (s.busy = true ∧ engineStep (takeTurn s) = .next t) ∨ t = takeTurn s := by
  unfold step at h
  cases hm : nextMover s with
  | host x =>
    rw [hm] at h
    unfold nextMover at hm
    split at hm
    · rename_i y rest hs
      cases hm
      exact .inl ⟨x, rest, hs, h⟩
    · split at hm <;> cases hm
  | engine =>
    rw [hm] at h
    refine .inr (.inl ⟨?_, h⟩)
    by_contra hb
    unfold nextMover at hm
    split at hm
    · cases hm
    · simp [hb] at hm
  | nobody =>
    rw [hm] at h
    cases h
    exact .inr (.inr rfl)

/-- A Host turn at the head of the queue is the next step. -/
theorem step_of_host {s : State} {x : Txn} {rest : List Turn} (h : s.script = .host x :: rest) :
    step s = hostStep x (takeTurn s) := by
  simp [step, nextMover, h]

/-- A property that the taking of a turn, the Host's transactions and the Engine's steps keep is kept by
every step. -/
theorem step_keeps {P : State → Prop} (hturn : ∀ s, P s → P (takeTurn s))
    (hhost : ∀ {x s t}, P s → hostStep x s = .next t → P t)
    (hengine : ∀ {s t}, s.busy = true → P s → engineStep s = .next t → P t)
    {s t : State} (hs : P s) (h : step s = .next t) : P t := by
  obtain ⟨x, _, _, h⟩ | ⟨hb, h⟩ | rfl := step_next h
  · exact hhost (hturn s hs) h
  · exact hengine (s := takeTurn s) hb (hturn s hs) h
  · exact hturn s hs

/-! The Host. -/

/-- What a Host transaction that is neither refused nor a race does (R70). Only a RESET resets. -/
inductive HostEffect (s : State) : Txn → State → Prop
  /-- RD or MRD. -/
  | read {x : Txn} (v : Word) : HostEffect s x { s with rdata := v }
  /-- WR of an operand register, or of a register that takes no write (R29, R30). -/
  | operands {x : Txn} (o : OperandRegs) : HostEffect s x { s with ops := o }
  /-- WR of CMD while a command runs (R74). -/
  | dropped {x : Txn} (hb : s.busy = true) : HostEffect s x { s with ovr := true }
  /-- WR of CMD while none does (R73). -/
  | accepted {x : Txn} (v : Word) (hb : s.busy = false) : HostEffect s x (accept v s)
  /-- MWR outside the regions of the running command (R55). -/
  | wrote {x : Txn} (a : Word) (b : Byte) (ha : a.toNat < s.cfg.memSize)
      (hr : writeRaces s a = false) :
      HostEffect s x { s with mem := s.mem.write a.toNat b }
  /-- RESET (R148). -/
  | reset : HostEffect s .reset (resetDevice s)

/-- What a write to each register but CMD does (R29, R30). -/
theorem writeRegister_of_ne_zero {i : Nat} (hi : i ≠ 0) (v : Word) (s : State) :
    writeRegister i v s = { s with
      ops :=
        { seed := if i = 3 then v else s.ops.seed
          srcAddr := if i = 4 then v else s.ops.srcAddr
          srcLen := if i = 5 then v else s.ops.srcLen
          dstAddr := if i = 6 then v else s.ops.dstAddr
          dstCap := if i = 7 then v else s.ops.dstCap
          width := if i = 8 then v else s.ops.width
          height := if i = 9 then v else s.ops.height
          chunkType := if i = 10 then v else s.ops.chunkType } } := by
  unfold writeRegister
  split <;> simp_all

/-- A write to a register is one of the effects of a Host transaction. -/
theorem writeRegister_effect {x : Txn} (i : Nat) (v : Word) (s : State) :
    HostEffect s x (writeRegister i v s) := by
  by_cases hi : i = 0
  · subst hi
    rw [show writeRegister 0 v s = writeCommand v s from rfl, writeCommand]
    split
    · exact .dropped ‹_›
    · exact .accepted v (by simpa using ‹¬ s.busy = true›)
  · rw [writeRegister_of_ne_zero hi]
    exact .operands _

/-- Everything a Host transaction can answer as a next state. -/
theorem hostStep_effect {x : Txn} {s t : State} (h : hostStep x s = .next t) : HostEffect s x t := by
  cases x with
  | rd width off =>
    simp only [hostStep, hostRd] at h
    split at h
    · cases h; exact .read _
    · cases h
  | wr width off v =>
    simp only [hostStep, hostWr] at h
    split at h
    · cases h; exact writeRegister_effect _ v s
    · cases h
  | mrd a =>
    simp only [hostStep, hostMrd] at h
    split at h
    · split at h
      · cases h
      · cases h; exact .read _
    · cases h
  | mwr a b =>
    simp only [hostStep, hostMwr] at h
    split at h
    · split at h
      · cases h
      · cases h; exact .wrote a b ‹_› (by simpa using ‹¬ writeRaces s a = true›)
    · cases h
  | reset => cases h; exact .reset

/-! The Engine. -/

/-- The Engine runs the latched command, or rejects the latched word (R66, R75). -/
theorem engineStep_next {s t : State} (h : engineStep s = .next t) :
    (∃ i, decode s.lat.cmd = .ok i ∧ exec i s = .next t) ∨ t = illegalCommand s := by
  unfold engineStep at h
  split at h
  · exact .inl ⟨_, ‹_›, h⟩
  · cases h; exact .inr rfl

/-- The state with `bs` stored at the latched destination. -/
def storeAtDest (bs : Bytes) (s : State) : State :=
  { s with mem := s.mem.writeBytes s.lat.ops.dstAddr.toNat bs }

/-- What a step of a command has done before it ends: at most one build of the table, one request to the
sink and one store at the destination. -/
inductive Work (s : State) : State → Prop
  /-- Nothing: a failed check, or the EXEC step of ENCPNG. -/
  | nothing : Work s s
  /-- `EnsureTable` (R77). -/
  | table : Work s (ensureTable s)
  /-- An open that succeeded (R85). -/
  | opened : Work s (emptyStream (takeOpen s))
  /-- An open that was refused, of a closed stream (R85, R93); ENCPNG has checked that at EXEC (R113). -/
  | refused (truncated : Bool) (hc : s.strmOpen = false ∨ s.phase = .opening) :
      Work s (refuseOpen truncated (takeOpen s))
  /-- The close (R86). -/
  | closed : Work s (streamClose s)
  /-- An append, or the part of it that landed (R88). -/
  | landed (bs : Bytes) : Work s (land bs (takeWrite s))
  /-- `EnsureTable` and an append (R96, R116). -/
  | tableLanded (bs : Bytes) : Work s (land bs (takeWrite (ensureTable s)))
  /-- A store at the destination (R103, R109, R126). -/
  | stored (bs : Bytes) (hr : RegionInRange s.cfg.memSize s.lat.ops.dstAddr bs.length)
      (hf : bs.length ≤ s.lat.ops.dstCap.toNat) : Work s (storeAtDest bs s)
  /-- The scramble of the destination, which draws a free value (R106, R110). -/
  | scrambled (bs : Bytes) (hr : RegionInRange s.cfg.memSize s.lat.ops.dstAddr bs.length)
      (hf : bs.length ≤ s.lat.ops.dstCap.toNat) :
      Work s { storeAtDest bs s with draws := s.draws + 1 }
  /-- The store of the compressed image and of its length (R117). -/
  | compressed (z : Bytes) (hr : RegionInRange s.cfg.memSize s.lat.ops.dstAddr z.length)
      (hf : z.length ≤ s.lat.ops.dstCap.toNat) :
      Work s { storeAtDest z s with zlen := BitVec.ofNat 32 z.length }

/-- The commands that give a RESULT (R27). -/
def GivesResult (i : Instr) : Prop :=
  i = .crc ∨ i = .wchunk ∨ (∃ ft, i = .filt ft ∨ i = .fcomp ft ∨ i = .encpng ft) ∨ i = .rgb

/-- How a step of the command `i` ends: the command is over, or ENCPNG goes on to its next phase. -/
inductive Ending (i : Instr) (u : State) : State → Prop
  /-- An error (R130). -/
  | raised (e : DevError) (info : Word) : Ending i u (raise e info u)
  /-- Success without a result (R131). -/
  | completed : Ending i u (complete u)
  /-- Success with a result (R27, R131). -/
  | completedWith (r : Word) (hi : GivesResult i) : Ending i u (completeWith r u)
  /-- The next phase of ENCPNG (R33). -/
  | advanced (p : Phase) (hp : p ≠ .idle) (ft : BitVec 3) (hi : i = .encpng ft) :
      Ending i u (toPhase p u)

/-- A step of `i` from `s` to `t`: its work, then its end. -/
def WorkThenEnd (i : Instr) (s t : State) : Prop := ∃ u, Work s u ∧ Ending i u t

theorem Rejected.workThenEnd {gs : List Guard} {i : Instr} {s t : State} (h : Rejected gs s t) :
    WorkThenEnd i s t := by
  obtain ⟨g, -, rfl⟩ := h
  exact ⟨s, .nothing, .raised ..⟩

/-- An append and then an end: the end runs, or the append raised its error. -/
theorem append_workThenEnd {i : Instr} {k : State → State} {s : State} (bs : Bytes)
    (hk : ∀ u, Ending i u (k u)) : WorkThenEnd i s ((append bs s).andThen k) := by
  obtain ⟨-, h⟩ | ⟨n, -, h⟩ := append_cases bs s <;> rw [h]
  · exact ⟨_, .landed bs, hk _⟩
  · exact ⟨_, .landed (bs.take n), .raised ..⟩

/-- The same after the table has been built. -/
theorem ensureTable_append_workThenEnd {i : Instr} {k : State → State} {s : State} (bs : Bytes)
    (hk : ∀ u, Ending i u (k u)) : WorkThenEnd i s ((append bs (ensureTable s)).andThen k) := by
  obtain ⟨-, h⟩ | ⟨n, -, h⟩ := append_cases bs (ensureTable s) <;> rw [h]
  · exact ⟨_, .tableLanded bs, hk _⟩
  · exact ⟨_, .tableLanded (bs.take n), .raised ..⟩

/-- An open of a closed stream and then an end. -/
theorem streamOpen_workThenEnd {i : Instr} {k : State → State} {s : State}
    (hc : s.strmOpen = false ∨ s.phase = .opening) (hk : ∀ u, Ending i u (k u)) :
    WorkThenEnd i s ((streamOpen s).andThen k) := by
  obtain ⟨-, h⟩ | ⟨b, -, h⟩ := streamOpen_cases s <;> rw [h]
  · exact ⟨_, .opened, hk _⟩
  · exact ⟨_, .refused b hc, .raised ..⟩

/-- Compress, with either of its uses: FCOMP completes, ENCPNG stores the length (R109, R117). -/
theorem compressTo_workThenEnd {i : Instr} {k : Nat → State → State} {s t : State} {x : Bytes}
    (hk : ∀ z : Bytes, RegionInRange s.cfg.memSize s.lat.ops.dstAddr z.length →
      z.length ≤ s.lat.ops.dstCap.toNat → WorkThenEnd i s (k z.length (storeAtDest z s)))
    (h : compressTo x k s = .ok t) : WorkThenEnd i s t := by
  obtain ⟨hr, info, rfl⟩ | ⟨z, -, hf, hr, rfl⟩ := compressTo_next h
  · exact ⟨_, .scrambled (scrambled s s.lat.ops.dstCap.toNat) (by simpa using hr) (by simp),
      .raised ..⟩
  · exact hk z hr hf

theorem execFilt_workThenEnd {ft : BitVec 3} {s t : State} (h : execFilt ft s = .next t) :
    WorkThenEnd (.filt ft) s t := by
  obtain h | ⟨⟨-, ⟨-, -, -, hd, -⟩, hc⟩, rgb, hrgb, rfl⟩ := execFilt_eq_next.1 h
  · exact h.workThenEnd
  · have hl := filtered_length (Memory.readBytes_eq_some.1 hrgb).1
    have hf : (filtered rgb s.lat.ops.width.toNat s.lat.ops.height.toNat).length ≤
        s.lat.ops.dstCap.toNat := hl ▸ hc
    exact ⟨_, .stored _ (hd.mono hf) hf, .completedWith _ (.inr (.inr (.inl ⟨ft, .inl rfl⟩)))⟩

theorem execRgb_workThenEnd {s t : State} (h : execRgb s = .next t) : WorkThenEnd .rgb s t := by
  obtain h | ⟨⟨-, -, ⟨-, -, hd, -⟩, hc⟩, words, hw, rfl⟩ := execRgb_eq_next.1 h
  · exact h.workThenEnd
  · have hf : (toRgb s.cfg.pixelByteOrder words).length ≤ s.lat.ops.dstCap.toNat :=
      (toRgb_length _ (Memory.readBytes_eq_some.1 hw).1).trans_le hc
    exact ⟨_, .stored _ (hd.mono hf) hf, .completedWith _ (.inr (.inr (.inr rfl)))⟩

theorem execEncpng_workThenEnd {ft : BitVec 3} {s t : State} (h : execEncpng ft s = .next t) :
    WorkThenEnd (.encpng ft) s t := by
  have goesOn {p : Phase} (hp : p ≠ .idle) (u : State) : Ending (.encpng ft) u (toPhase p u) :=
    .advanced p hp ft rfl
  obtain ⟨-, h | ⟨-, rfl⟩⟩ | ⟨hp, rfl⟩ | ⟨-, rfl⟩ | ⟨-, rfl⟩ | ⟨-, -, rgb, -, h⟩ |
    ⟨-, h | ⟨-, -, z, -, rfl⟩⟩ | ⟨-, rfl⟩ | ⟨-, rfl⟩ := execEncpng_eq_next h
  · exact h.workThenEnd
  · exact ⟨s, .nothing, goesOn (p := .opening) nofun s⟩
  · exact streamOpen_workThenEnd (.inr hp) (goesOn nofun)
  · exact append_workThenEnd _ (goesOn nofun)
  · exact ensureTable_append_workThenEnd _ (goesOn nofun)
  · exact compressTo_workThenEnd (fun z hr hf => ⟨_, .compressed z hr hf, goesOn (p := .idat) nofun _⟩) h
  · exact h.workThenEnd
  · exact append_workThenEnd _ (goesOn nofun)
  · exact append_workThenEnd _ (goesOn nofun)
  · exact ⟨_, .closed, .completedWith _ (.inr (.inr (.inl ⟨ft, .inr (.inr rfl)⟩)))⟩

/-- Everything a command can answer as a next state: some work, then an end. -/
theorem exec_workThenEnd {i : Instr} {s t : State} (h : exec i s = .next t) : WorkThenEnd i s t := by
  cases i with
  | tblinit => cases h; exact ⟨_, .table, .completed⟩
  | crc =>
    obtain h | ⟨-, data, -, rfl⟩ := execCrc_eq_next.1 h
    · exact h.workThenEnd
    · exact ⟨_, .table, .completedWith _ (.inl rfl)⟩
  | sopen =>
    cases (execSopen_eq s).symm.trans h
    split
    · exact ⟨s, .nothing, .raised ..⟩
    · exact streamOpen_workThenEnd (.inl (by simpa using ‹¬ s.strmOpen = true›)) fun _ => .completed
  | sclose =>
    cases (execSclose_eq s).symm.trans h
    split
    · exact ⟨_, .closed, .completed⟩
    · exact ⟨s, .nothing, .raised ..⟩
  | wsig =>
    cases (execWsig_eq s).symm.trans h
    split
    · exact append_workThenEnd _ fun _ => .completed
    · exact ⟨s, .nothing, .raised ..⟩
  | wchunk =>
    obtain h | ⟨-, p, -, rfl⟩ := execWchunk_eq_next.1 h
    · exact h.workThenEnd
    · exact ensureTable_append_workThenEnd _ fun _ => .completedWith _ (.inr (.inl rfl))
  | filt ft => exact execFilt_workThenEnd h
  | fcomp ft =>
    obtain h | ⟨-, rgb, -, h⟩ := execFcomp_eq_next.1 h
    · exact h.workThenEnd
    · exact compressTo_workThenEnd (fun z hr hf =>
        ⟨_, .stored z hr hf, .completedWith _ (.inr (.inr (.inl ⟨ft, .inr (.inl rfl)⟩)))⟩) h
  | encpng ft => exact execEncpng_workThenEnd h
  | rgb => exact execRgb_workThenEnd h

end Sys2Proof.Machine

/-! SUPPORT. The parts of the invariant that any command keeps: the table, the completion record, memory
and the count of the stream; what the Host's transactions and the Engine's steps do to each. -/

namespace Sys2Proof.Machine

/-! What the work of a command does to each field. -/

/-- The fields no command works on, and the completion record, which only its end writes. -/
structure SameRecord (s u : State) : Prop where
  cfg : u.cfg = s.cfg
  ops : u.ops = s.ops
  lat : u.lat = s.lat
  script : u.script = s.script
  rdata : u.rdata = s.rdata
  busy : u.busy = s.busy
  done : u.done = s.done
  err : u.err = s.err
  ovr : u.ovr = s.ovr
  errCode : u.errCode = s.errCode
  phase : u.phase = s.phase
  errInfo : u.errInfo = s.errInfo
  result : u.result = s.result

theorem Work.sameRecord {s u : State} (h : Work s u) : SameRecord s u := by
  cases h <;> constructor <;> simp [storeAtDest]

/-- The table is left alone, or is as `EnsureTable` leaves it (R77). -/
theorem Work.table_cases {s u : State} (h : Work s u) :
    (u.tblValid = s.tblValid ∧ u.tbl = s.tbl) ∨
      (u.tblValid = true ∧ u.tbl = (ensureTable s).tbl) := by
  cases h with
  | table => exact .inr ⟨by simp, rfl⟩
  | tableLanded bs => exact .inr ⟨by simp, by simp⟩
  | _ => exact .inl ⟨by simp [storeAtDest], by simp [storeAtDest]⟩

/-- Memory is left alone, or takes a store inside the destination. -/
theorem Work.mem_cases {s u : State} (h : Work s u) :
    u.mem = s.mem ∨ ∃ bs : Bytes, RegionInRange s.cfg.memSize s.lat.ops.dstAddr bs.length ∧
      bs.length ≤ s.lat.ops.dstCap.toNat ∧ u.mem = s.mem.writeBytes s.lat.ops.dstAddr.toNat bs := by
  cases h with
  | stored bs hr hf => exact .inr ⟨bs, hr, hf, rfl⟩
  | scrambled bs hr hf => exact .inr ⟨bs, hr, hf, rfl⟩
  | compressed z hr hf => exact .inr ⟨z, hr, hf, rfl⟩
  | _ => exact .inl (by simp)

/-- An end leaves the latches, the table, memory and the stream as the work left them. -/
theorem Ending.frame {i : Instr} {u t : State} (h : Ending i u t) :
    (t.cfg = u.cfg ∧ t.ops = u.ops ∧ t.lat = u.lat ∧ t.ovr = u.ovr ∧ t.script = u.script ∧
      t.rdata = u.rdata) ∧
    (t.tblValid = u.tblValid ∧ t.tbl = u.tbl) ∧ t.mem = u.mem ∧
    (t.strmOpen = u.strmOpen ∧ t.out = u.out ∧ t.outCount = u.outCount) := by
  cases h <;> exact ⟨⟨rfl, rfl, rfl, rfl, rfl, rfl⟩, ⟨rfl, rfl⟩, rfl, rfl, rfl, rfl⟩

/-! The table (R32, R77). -/

/-- A valid table stays as it is under a command. -/
theorem exec_table_of_valid {i : Instr} {s t : State} (h : exec i s = .next t)
    (hv : s.tblValid = true) : t.tblValid = true ∧ t.tbl = s.tbl := by
  obtain ⟨u, hw, he⟩ := exec_workThenEnd h
  obtain ⟨-, ⟨hv', ht⟩, -⟩ := he.frame
  rw [hv', ht]
  obtain ⟨h1, h2⟩ | ⟨h1, h2⟩ := hw.table_cases
  · exact ⟨h1.trans hv, h2⟩
  · exact ⟨h1, by rw [h2, ensureTable_of_valid hv]⟩

theorem exec_keeps_tableInv {i : Instr} {s t : State} (hs : TableInv s) (h : exec i s = .next t) :
    TableInv t := by
  obtain ⟨u, hw, he⟩ := exec_workThenEnd h
  obtain ⟨-, ⟨hv', ht⟩, -⟩ := he.frame
  intro hv
  rw [ht]
  obtain ⟨h1, h2⟩ | ⟨-, h2⟩ := hw.table_cases
  · exact h2.trans (hs (h1.symm.trans (hv'.symm.trans hv)))
  · exact h2.trans (ensureTable_tbl hs)

theorem engineStep_keeps_tableInv {s t : State} (hs : TableInv s) (h : engineStep s = .next t) :
    TableInv t := by
  obtain ⟨i, -, h⟩ | rfl := engineStep_next h
  · exact exec_keeps_tableInv hs h
  · exact hs

theorem hostStep_keeps_tableInv {x : Txn} {s t : State} (hs : TableInv s)
    (h : hostStep x s = .next t) : TableInv t := by
  cases hostStep_effect h with
  | reset => exact nofun
  | _ => exact hs

/-! The completion record (R17, R18, R33, R130, R131). -/

theorem StatusInv.raise {s : State} (hs : StatusInv s) (hb : s.busy = true) (e : DevError)
    (info : Word) : StatusInv (raise e info s) := by
  obtain ⟨hbusy, -, -, -, -, -⟩ := hs
  obtain ⟨-, -, hp⟩ := hbusy hb
  exact ⟨nofun, rfl, fun _ => ⟨rfl, hp⟩, nofun, nofun, fun _ => .inr rfl⟩

theorem StatusInv.complete {s : State} (hs : StatusInv s) (hb : s.busy = true) :
    StatusInv (complete s) := by
  obtain ⟨hbusy, hcode, -, -, hinfo, -⟩ := hs
  obtain ⟨-, he, -⟩ := hbusy hb
  exact ⟨nofun, hcode, fun h => absurd (he.symm.trans h) nofun, fun _ _ => rfl, hinfo,
    fun _ => .inr rfl⟩

theorem StatusInv.toPhase {s : State} (hs : StatusInv s) (hb : s.busy = true) {p : Phase}
    (hp : p ≠ .idle) : StatusInv (toPhase p s) := by
  obtain ⟨hbusy, hcode, -, -, hinfo, hovr⟩ := hs
  obtain ⟨hd, he, -⟩ := hbusy hb
  exact ⟨fun _ => ⟨hd, he, hp⟩, hcode, fun h => absurd (he.symm.trans h) nofun,
    fun h => absurd (hb.symm.trans h) nofun, hinfo, hovr⟩

theorem SameRecord.statusInv_iff {s u : State} (h : SameRecord s u) : StatusInv u ↔ StatusInv s := by
  simp only [StatusInv, h.busy, h.done, h.err, h.ovr, h.errCode, h.phase, h.errInfo]

theorem Ending.statusInv {i : Instr} {u t : State} (h : Ending i u t) (hu : StatusInv u)
    (hb : u.busy = true) : StatusInv t := by
  cases h with
  | raised e info => exact hu.raise hb e info
  | completed => exact hu.complete hb
  | completedWith r _ => exact hu.complete hb
  | advanced p hp _ _ => exact hu.toPhase hb hp

theorem engineStep_keeps_statusInv {s t : State} (hb : s.busy = true) (hs : StatusInv s)
    (h : engineStep s = .next t) : StatusInv t := by
  obtain ⟨i, -, h⟩ | rfl := engineStep_next h
  · obtain ⟨u, hw, he⟩ := exec_workThenEnd h
    have hsame := hw.sameRecord
    exact he.statusInv (hsame.statusInv_iff.2 hs) (hsame.busy.trans hb)
  · exact hs.raise hb _ _

theorem hostStep_keeps_statusInv {x : Txn} {s t : State} (hs : StatusInv s)
    (h : hostStep x s = .next t) : StatusInv t := by
  cases hostStep_effect h with
  | read _ => exact hs
  | operands _ => exact hs
  | wrote a b _ _ => exact hs
  | dropped hb =>
    obtain ⟨hbusy, hcode, herr, hidle, hinfo, -⟩ := hs
    exact ⟨hbusy, hcode, herr, hidle, hinfo, fun _ => .inl hb⟩
  | accepted v _ => exact ⟨fun _ => ⟨rfl, rfl, nofun⟩, rfl, nofun, nofun, fun _ => rfl, nofun⟩
  | reset => exact ⟨nofun, rfl, nofun, fun _ _ => rfl, fun _ => rfl, nofun⟩

/-! Memory (R43). -/

theorem MemoryInv.write {s : State} (hs : MemoryInv s) {a : Word} (ha : a.toNat < s.cfg.memSize)
    (b : Byte) : MemoryInv { s with mem := s.mem.write a.toNat b } := by
  obtain ⟨hwf, hmem⟩ := hs
  refine ⟨Memory.wf_write hwf _ b, fun c hc => ?_⟩
  obtain rfl | hc := Memory.mem_write hc
  · exact ha
  · exact hmem c hc

theorem MemoryInv.writeBytes {s t : State} (hs : MemoryInv s) {a : Word} {bs : Bytes}
    (hr : RegionInRange s.cfg.memSize a bs.length) (hm : t.mem = s.mem.writeBytes a.toNat bs)
    (hc : t.cfg = s.cfg) : MemoryInv t := by
  obtain ⟨hwf, hmem⟩ := hs
  unfold MemoryInv
  rw [hm, hc]
  refine ⟨Memory.wf_writeBytes hwf _, fun c hc => ?_⟩
  obtain h | hc := Memory.mem_writeBytes hc
  · unfold RegionInRange at hr; omega
  · exact hmem c hc

theorem engineStep_keeps_memoryInv {s t : State} (hs : MemoryInv s) (h : engineStep s = .next t) :
    MemoryInv t := by
  obtain ⟨i, -, h⟩ | rfl := engineStep_next h
  · obtain ⟨u, hw, he⟩ := exec_workThenEnd h
    obtain ⟨⟨hcfg, -⟩, -, hmem, -⟩ := he.frame
    have hcfg := hcfg.trans hw.sameRecord.cfg
    obtain hm | ⟨bs, hr, -, hm⟩ := hw.mem_cases
    · unfold MemoryInv
      rwa [hmem, hm, hcfg]
    · exact hs.writeBytes hr (hmem.trans hm) hcfg
  · exact hs

theorem hostStep_keeps_memoryInv {x : Txn} {s t : State} (hs : MemoryInv s)
    (h : hostStep x s = .next t) : MemoryInv t := by
  cases hostStep_effect h with
  | wrote a b ha _ => exact hs.write ha b
  | _ => exact hs

/-! The count of the stream (R28). -/

theorem StreamInv.land {s : State} (hs : StreamInv s) (bs : Bytes) : StreamInv (land bs s) := by
  intro ho
  rw [land_outCount, hs ho, land_out, List.length_append, BitVec.ofNat_add]

theorem Work.streamInv {s u : State} (h : Work s u) (hs : StreamInv s)
    (hc : s.phase = .opening → s.strmOpen = false) : StreamInv u := by
  cases h with
  | opened => exact fun _ => rfl
  | refused truncated h =>
    have h := h.elim id hc
    exact fun ho => absurd ho (by simp [h])
  | closed => exact nofun
  | landed bs => exact StreamInv.land (s := takeWrite s) (by simpa [StreamInv] using hs) bs
  | tableLanded bs =>
    exact StreamInv.land (s := takeWrite (ensureTable s)) (by simpa [StreamInv] using hs) bs
  | table => simpa [StreamInv] using hs
  | _ => exact hs

theorem engineStep_keeps_streamInv {s t : State} (hs : StreamInv s)
    (hc : s.phase = .opening → s.strmOpen = false) (h : engineStep s = .next t) : StreamInv t := by
  obtain ⟨i, -, h⟩ | rfl := engineStep_next h
  · obtain ⟨u, hw, he⟩ := exec_workThenEnd h
    obtain ⟨-, -, -, ho, hout, hcount⟩ := he.frame
    have hu := hw.streamInv hs hc
    unfold StreamInv
    rwa [ho, hout, hcount]
  · exact hs

theorem hostStep_keeps_streamInv {x : Txn} {s t : State} (hs : StreamInv s)
    (h : hostStep x s = .next t) : StreamInv t := by
  cases hostStep_effect h with
  | reset => exact nofun
  | _ => exact hs

end Sys2Proof.Machine

/-! SUPPORT. The sequencer: what a running ENCPNG has done before each phase stays in place under the
Host's transactions, and every phase leads to what the next one needs (R55, R112 to R120). -/

namespace Sys2Proof.Machine

/-! When nothing is claimed, and what a phase change has to show. -/

theorem SequencerInv.of_not_busy {s : State} (h : s.busy = false) : SequencerInv s :=
  fun hb => absurd (h.symm.trans hb) nofun

theorem SequencerInv.of_exec {s : State} (h : s.phase = .exec) : SequencerInv s :=
  fun _ hp => absurd h hp

/-- A running ENCPNG whose checks are met (R113). -/
def EncodingReady (s : State) : Prop := decode s.lat.cmd = .ok (.encpng 0) ∧ ImageOperandsOk s

theorem EncodingReady.congr {s t : State} (hs : EncodingReady s) (hl : t.lat = s.lat)
    (hc : t.cfg = s.cfg) : EncodingReady t := by
  simpa only [EncodingReady, ImageOperandsOk, hl, hc] using hs

theorem EncodingReady.sequencerInv {s : State} (hs : EncodingReady s) (hp : EncodingProgress s) :
    SequencerInv s := by
  obtain ⟨hd, ho⟩ := hs
  exact fun _ _ => ⟨hd, ho, hp⟩

/-- While its phase is past EXEC the running command is an ENCPNG (R33). -/
theorem SequencerInv.ready {s : State} (hs : SequencerInv s) (hb : s.busy = true)
    (hp : s.phase ≠ .exec) : EncodingReady s ∧ EncodingProgress s := by
  obtain ⟨hd, ho, hpr⟩ := hs hb hp
  exact ⟨⟨hd, ho⟩, hpr⟩

/-- At the open the stream is closed: the EXEC step has checked it (R113). -/
theorem SequencerInv.closed_of_opening {s : State} (hs : SequencerInv s) (hb : s.busy = true)
    (hp : s.phase = .opening) : s.strmOpen = false := by
  obtain ⟨-, h⟩ := hs.ready hb (by simp [hp])
  simpa [EncodingProgress, hp] using h

/-! The Host between the steps (R55). -/

/-- A Host write that is no race with a running ENCPNG lies outside its source and its destination. -/
theorem outside_of_not_writeRaces {s : State} {a : Word} (hb : s.busy = true)
    (hd : decode s.lat.cmd = .ok (.encpng 0)) (hr : writeRaces s a = false) :
    ¬ (s.lat.ops.srcAddr.toNat ≤ a.toNat ∧
      a.toNat < s.lat.ops.srcAddr.toNat + rgbSize s.lat.ops) ∧
    ¬ (s.lat.ops.dstAddr.toNat ≤ a.toNat ∧
      a.toNat < s.lat.ops.dstAddr.toNat + s.lat.ops.dstCap.toNat) := by
  rw [← Bool.not_eq_true] at hr
  simpa only [writeRaces, hb, runningSource, runningDest, hd, sourceRegion, destRegion, if_true,
    Bool.true_and, Bool.or_eq_true, Region.contains_iff, not_or] using hr

/-- A write outside a region leaves what the region reads as. -/
theorem Memory.readBytes_write_outside (m : Memory) {a n c : Nat} (b : Byte)
    (h : ¬ (a ≤ c ∧ c < a + n)) : (m.write c b).readBytes a n = m.readBytes a n :=
  Memory.readBytes_congr fun d h1 h2 => Memory.read_write_other m b (by omega)

/-- A write outside source and destination leaves the payload in place. -/
theorem Payload.write_outside {s : State} {z : Bytes} (hz : Payload s z) {a : Nat} (b : Byte)
    (hs : ¬ (s.lat.ops.srcAddr.toNat ≤ a ∧ a < s.lat.ops.srcAddr.toNat + rgbSize s.lat.ops))
    (hd : ¬ (s.lat.ops.dstAddr.toNat ≤ a ∧
      a < s.lat.ops.dstAddr.toNat + s.lat.ops.dstCap.toNat)) :
    Payload { s with mem := s.mem.write a b } z := by
  obtain ⟨⟨rgb, hrgb, hdefl⟩, hlen, hread, hzlen⟩ := hz
  have hsrc := Memory.readBytes_write_outside s.mem b hs
  have hdst := Memory.readBytes_write_outside s.mem (n := z.length) b fun h => hd ⟨h.1, by omega⟩
  exact ⟨⟨rgb, hsrc.trans hrgb, hdefl⟩, hlen, hdst.trans hread, hzlen⟩

/-- The progress of an ENCPNG depends on memory through the payload only. -/
theorem EncodingProgress.with_mem {s : State} {m : Memory} (hs : EncodingProgress s)
    (hm : ∀ z, Payload s z → Payload { s with mem := m } z) :
    EncodingProgress { s with mem := m } := by
  unfold EncodingProgress at hs ⊢
  cases hp : s.phase <;> simp only [hp] at hs ⊢
  case idat =>
    obtain ⟨ho, hv, hout, z, hz⟩ := hs
    exact ⟨ho, hv, hout, z, hm z hz⟩
  case iend =>
    obtain ⟨ho, hv, z, hz, hout⟩ := hs
    exact ⟨ho, hv, z, hm z hz, hout⟩
  case closing =>
    obtain ⟨ho, hv, z, hz, hout⟩ := hs
    exact ⟨ho, hv, z, hm z hz, hout⟩
  all_goals exact hs

theorem SequencerInv.write {s : State} (hs : SequencerInv s) {a : Word} (b : Byte)
    (hr : writeRaces s a = false) : SequencerInv { s with mem := s.mem.write a.toNat b } := by
  intro hb hp
  obtain ⟨hd, ho, hpr⟩ := hs hb hp
  obtain ⟨hsrc, hdst⟩ := outside_of_not_writeRaces hb hd hr
  exact ⟨hd, ho, hpr.with_mem fun z hz => hz.write_outside b hsrc hdst⟩

theorem hostStep_keeps_sequencerInv {x : Txn} {s t : State} (hs : SequencerInv s)
    (h : hostStep x s = .next t) : SequencerInv t := by
  cases hostStep_effect h with
  | read _ => exact hs
  | operands _ => exact hs
  | dropped _ => exact hs
  | wrote a b _ hr => exact hs.write b hr
  | accepted v _ => exact .of_exec rfl
  | reset => exact .of_not_busy rfl

/-! The phases. -/

/-- The EXEC step: a failed check ends the command, and otherwise the stream is closed (R113). -/
theorem encExec_keeps_sequencerInv {ft : BitVec 3} {s t : State}
    (hd : decode s.lat.cmd = .ok (.encpng ft)) (h : encExec ft s = .next t) : SequencerInv t := by
  obtain ⟨g, -, rfl⟩ | ⟨⟨rfl, ho, hc⟩, rfl⟩ := encExec_eq_next.1 h
  · exact .of_not_busy rfl
  · exact EncodingReady.sequencerInv (s := toPhase .opening s) ⟨hd, ho⟩ hc

theorem encOpen_sequencerInv {s : State} (hr : EncodingReady s) : SequencerInv (encOpen s) := by
  unfold encOpen
  obtain ⟨-, h⟩ | ⟨b, -, h⟩ := streamOpen_cases s <;> rw [h]
  · exact (hr.congr (by simp) (by simp)).sequencerInv ⟨rfl, rfl⟩
  · exact .of_not_busy rfl

/-- A phase that appends: the append goes on to the next phase, or it ends the command. -/
theorem append_sequencerInv {bs : Bytes} {p : Phase} {s : State} (hr : EncodingReady s)
    (hp : EncodingProgress (toPhase p (land bs (takeWrite s)))) :
    SequencerInv ((append bs s).andThen (toPhase p)) := by
  obtain ⟨-, h⟩ | ⟨k, -, h⟩ := append_cases bs s <;> rw [h]
  · exact (hr.congr (by simp) (by simp)).sequencerInv hp
  · exact .of_not_busy rfl

/-- An append and a phase change leave the payload alone. -/
theorem Payload.append {s : State} {z : Bytes} (hz : Payload s z) (bs : Bytes) (p : Phase) :
    Payload (toPhase p (land bs (takeWrite s))) z := by
  simpa [Payload, SourceImage] using hz

theorem encSig_sequencerInv {s : State} (hr : EncodingReady s) (hp : s.phase = .sig)
    (hs : EncodingProgress s) : SequencerInv (encSig s) := by
  simp only [EncodingProgress, hp] at hs
  obtain ⟨ho, hout⟩ := hs
  exact append_sequencerInv hr ⟨by simp [ho], by simp [hout]⟩

theorem encIhdr_sequencerInv {s : State} (hr : EncodingReady s) (ht : TableInv s)
    (hp : s.phase = .ihdr) (hs : EncodingProgress s) : SequencerInv (encIhdr s) := by
  simp only [EncodingProgress, hp] at hs
  obtain ⟨ho, hout⟩ := hs
  refine append_sequencerInv (hr.congr (by simp) (by simp)) ⟨by simp [ho], by simp, ?_⟩
  simp [hout, fileHead, ensureTable_tbl ht]

/-- A store leaves what a region reads as that it does not overlap (R45). -/
theorem Memory.readBytes_writeBytes_of_not_overlap (m : Memory) {a b : Word} {n k : Nat} {bs : Bytes}
    (h : ¬ RegionsOverlap a n b k) (hk : bs.length ≤ k) :
    (m.writeBytes b.toNat bs).readBytes a.toNat n = m.readBytes a.toNat n := by
  refine Memory.readBytes_congr fun c h1 h2 => Memory.read_writeBytes_outside ?_
  unfold RegionsOverlap at h
  omega

/-- What the COMPRESS phase stores is the payload: the source, which does not overlap the destination, is
still the image, and the stored bytes read back (R117). -/
theorem payload_of_store {s : State} (ho : ImageOperandsOk s) {rgb z : Bytes}
    (hrgb : SourceImage s rgb)
    (hz : deflate s.cfg.compressor (filtered rgb s.lat.ops.width.toNat s.lat.ops.height.toNat) =
      some z)
    (hf : z.length ≤ s.lat.ops.dstCap.toNat) :
    Payload (storeLength z.length (storeAtDest z s)) z := by
  obtain ⟨-, -, -, -, hover⟩ := ho
  have hsrc := Memory.readBytes_writeBytes_of_not_overlap s.mem hover hf
  exact ⟨⟨rgb, hsrc.trans hrgb, hz⟩, hf, Memory.readBytes_writeBytes .., rfl⟩

theorem encCompress_sequencerInv {s t : State} (hr : EncodingReady s) (hp : s.phase = .compress)
    (hs : EncodingProgress s) (h : encCompress s = .ok t) : SequencerInv t := by
  simp only [EncodingProgress, hp] at hs
  obtain ⟨ho, hv, hout⟩ := hs
  obtain ⟨-, rgb, hrgb, h⟩ := encCompress_eq_ok.1 h
  obtain ⟨-, info, rfl⟩ | ⟨z, hz, hf, -, rfl⟩ := compressTo_next h
  · exact .of_not_busy rfl
  · have hpay := payload_of_store hr.2 hrgb hz hf
    exact EncodingReady.sequencerInv (s := storeLength z.length (storeAtDest z s))
      (hr.congr rfl rfl) ⟨ho, hv, hout, z, hpay⟩

/-- In the IDAT phase the `ZLEN` bytes at the destination are the payload (R118). -/
theorem Payload.eq_of_read {s : State} {z z' : Bytes} (hz : Payload s z)
    (h : s.mem.readBytes s.lat.ops.dstAddr.toNat s.zlen.toNat = some z') : z' = z := by
  obtain ⟨-, hlen, hread, hzlen⟩ := hz
  have hlt : z.length < 2 ^ 32 := Nat.lt_of_le_of_lt hlen s.lat.ops.dstCap.isLt
  rw [hzlen, BitVec.toNat_ofNat, Nat.mod_eq_of_lt hlt, hread] at h
  exact (Option.some.inj h).symm

theorem encIdat_sequencerInv {s t : State} (hr : EncodingReady s) (ht : TableInv s)
    (hp : s.phase = .idat) (hs : EncodingProgress s) (h : encIdat s = .next t) :
    SequencerInv t := by
  simp only [EncodingProgress, hp] at hs
  obtain ⟨ho, hv, hout, z, hz⟩ := hs
  obtain ⟨g, -, rfl⟩ | ⟨-, -, z', hread, rfl⟩ := encIdat_eq_next.1 h
  · exact .of_not_busy rfl
  · obtain rfl := hz.eq_of_read hread
    exact append_sequencerInv hr
      ⟨by simp [ho], by simp [hv], z', hz.append .., by simp [hout, ht hv]⟩

theorem encIend_sequencerInv {s : State} (hr : EncodingReady s) (ht : TableInv s)
    (hp : s.phase = .iend) (hs : EncodingProgress s) : SequencerInv (encIend s) := by
  simp only [EncodingProgress, hp] at hs
  obtain ⟨ho, hv, z, hz, hout⟩ := hs
  exact append_sequencerInv hr ⟨by simp [ho], by simp [hv], z, hz.append ..,
    by simp [hout, ht hv, fileHead, pngFile]⟩

/-- ENCPNG's step, by phase. -/
theorem execEncpng_keeps_sequencerInv {ft : BitVec 3} {s t : State} (hb : s.busy = true)
    (hd : decode s.lat.cmd = .ok (.encpng ft)) (ht : TableInv s) (hs : SequencerInv s)
    (h : execEncpng ft s = .next t) : SequencerInv t := by
  have past {p : Phase} (hp : s.phase = p) (hne : p ≠ .exec) := hs.ready hb (hp ▸ hne)
  obtain ⟨-, h⟩ | ⟨hp, rfl⟩ | ⟨hp, rfl⟩ | ⟨hp, rfl⟩ | ⟨hp, h⟩ | ⟨hp, h⟩ | ⟨hp, rfl⟩ | ⟨-, rfl⟩ :=
    execEncpng_eq_next h
  · exact encExec_keeps_sequencerInv hd (encExec_eq_next.2 h)
  · obtain ⟨hr, -⟩ := past hp nofun
    exact encOpen_sequencerInv hr
  · obtain ⟨hr, hprog⟩ := past hp nofun
    exact encSig_sequencerInv hr hp hprog
  · obtain ⟨hr, hprog⟩ := past hp nofun
    exact encIhdr_sequencerInv hr ht hp hprog
  · obtain ⟨hr, hprog⟩ := past hp nofun
    exact encCompress_sequencerInv hr hp hprog (encCompress_eq_ok.2 h)
  · obtain ⟨hr, hprog⟩ := past hp nofun
    exact encIdat_sequencerInv hr ht hp hprog (encIdat_eq_next.2 h)
  · obtain ⟨hr, hprog⟩ := past hp nofun
    exact encIend_sequencerInv hr ht hp hprog
  · exact .of_not_busy rfl

/-- Every command but ENCPNG is over after its step, so that nothing is left to claim. -/
theorem exec_not_busy {i : Instr} {s t : State} (hi : ∀ ft, i ≠ .encpng ft)
    (h : exec i s = .next t) : t.busy = false ∧ t.done = true := by
  obtain ⟨u, -, he⟩ := exec_workThenEnd h
  cases he with
  | advanced p hp ft hi' => exact absurd hi' (hi ft)
  | _ => exact ⟨rfl, rfl⟩

theorem engineStep_keeps_sequencerInv {s t : State} (hb : s.busy = true) (ht : TableInv s)
    (hs : SequencerInv s) (h : engineStep s = .next t) : SequencerInv t := by
  obtain ⟨i, hd, h⟩ | rfl := engineStep_next h
  · by_cases hi : ∃ ft, i = .encpng ft
    · obtain ⟨ft, rfl⟩ := hi
      exact execEncpng_keeps_sequencerInv hb hd ht hs h
    · exact .of_not_busy (exec_not_busy (fun ft e => hi ⟨ft, e⟩) h).1
  · exact .of_not_busy rfl

/-! The whole invariant. -/

theorem hostStep_keeps_inv {x : Txn} {s t : State} (hs : Inv s) (h : hostStep x s = .next t) :
    Inv t := by
  obtain ⟨hm, ht, hst, hstr, hseq⟩ := hs
  exact ⟨hostStep_keeps_memoryInv hm h, hostStep_keeps_tableInv ht h,
    hostStep_keeps_statusInv hst h, hostStep_keeps_streamInv hstr h,
    hostStep_keeps_sequencerInv hseq h⟩

theorem engineStep_keeps_inv {s t : State} (hb : s.busy = true) (hs : Inv s)
    (h : engineStep s = .next t) : Inv t := by
  obtain ⟨hm, ht, hst, hstr, hseq⟩ := hs
  exact ⟨engineStep_keeps_memoryInv hm h, engineStep_keeps_tableInv ht h,
    engineStep_keeps_statusInv hb hst h,
    engineStep_keeps_streamInv hstr (hseq.closed_of_opening hb) h,
    engineStep_keeps_sequencerInv hb ht hseq h⟩

end Sys2Proof.Machine

/-! The statements about the state, settled. -/

namespace Sys2Proof.Machine

/-! STATUS and the register window. -/

/-- Bits put side by side count as the upper field, shifted, plus the lower one. -/
theorem toNat_append_eq_add {m n : Nat} (x : BitVec m) (y : BitVec n) :
    (x ++ y).toNat = x.toNat * 2 ^ n + y.toNat := by
  rw [BitVec.toNat_append, ← Nat.shiftLeft_add_eq_or_of_lt y.isLt, Nat.shiftLeft_eq]

/-- STATUS as a number (R17). -/
theorem statusWord_toNat (s : State) : (statusWord s).toNat =
    s.busy.toNat + 2 * s.done.toNat + 4 * s.err.toNat + 8 * s.ovr.toNat +
      16 * (errCodeField s.errCode).toNat + 256 * s.tblValid.toNat + 512 * s.strmOpen.toNat +
      4096 * s.phase.code.toNat := by
  simp only [statusWord, toNat_append_eq_add, BitVec.toNat_ofBool, BitVec.ofNat_eq_ofNat,
    BitVec.toNat_ofNat]
  omega

/-- An offset of a whole word is accepted (R47). -/
theorem registerAccessOk_of_aligned {off : BitVec 8} (h : off.toNat % 4 = 0) :
    registerAccessOk .word off = true := by
  have : off.extractLsb' 0 2 = 0 := by
    rw [← BitVec.toNat_inj]
    simpa using h
  simp [registerAccessOk, this]

/-- The registers in the order of R15, 0 past the last one. -/
theorem readRegister_eq_getElem (i : Nat) (s : State) :
    readRegister i s = ([0, statusWord s, s.errInfo, s.ops.seed, s.ops.srcAddr, s.ops.srcLen,
      s.ops.dstAddr, s.ops.dstCap, s.ops.width, s.ops.height, s.ops.chunkType, s.result,
      s.outCount][i]?).getD 0 :=
  match i with
  | 0 | 1 | 2 | 3 | 4 | 5 | 6 | 7 | 8 | 9 | 10 | 11 | 12 => rfl
  | _ + 13 => rfl

/-- Settles O1: the fields of the reset state, and every register of it. -/
theorem powerOnStateIsIdle : Obligations.PowerOnStateIsIdle := by
  refine ⟨rfl, rfl, rfl, rfl, rfl, rfl, rfl, rfl, fun _ => rfl, fun off => ?_⟩
  unfold readRegister
  split <;> rfl

/-- Settles O2: each field stands where R17 puts it, and the codes are computed. -/
theorem statusWordHasTheFieldsOfR17 : Obligations.StatusWordHasTheFieldsOfR17 :=
  ⟨statusWord_toNat, rfl, rfl⟩

/-- Settles O3: an aligned RD is the next step and returns the register of its word index. -/
theorem registerReadsReturnTheRegisters : Obligations.RegisterReadsReturnTheRegisters := by
  intro s off rest hs ha
  rw [step_of_host hs, hostStep, hostRd, if_pos (registerAccessOk_of_aligned ha),
    readRegister_eq_getElem]
  simp [takeTurn, hs, statusWord, registerIndex]

/-- An aligned offset is a constant when its word index is. -/
theorem registerIndex_eq_iff {off c : BitVec 8} (h : off.toNat % 4 = 0) (hc : c.toNat % 4 = 0) :
    registerIndex off = registerIndex c ↔ off = c := by
  rw [← BitVec.toNat_inj, registerIndex, registerIndex]
  omega

/-- Settles O4: an aligned WR is the next step and reaches the register of its word index only. -/
theorem registerWritesReachOnlyTheOperands : Obligations.RegisterWritesReachOnlyTheOperands := by
  intro s off v rest hs ha h0
  have index (c : BitVec 8) (hc : c.toNat % 4 = 0) := registerIndex_eq_iff ha hc
  have hi : registerIndex off ≠ 0 := fun h => h0 ((index 0 rfl).1 h)
  rw [step_of_host hs, hostStep, hostWr, if_pos (registerAccessOk_of_aligned ha),
    writeRegister_of_ne_zero hi]
  simp only [← index 0x0C rfl, ← index 0x10 rfl, ← index 0x14 rfl, ← index 0x18 rfl,
    ← index 0x1C rfl, ← index 0x20 rfl, ← index 0x24 rfl, ← index 0x28 rfl]
  simp [takeTurn, hs, registerIndex]

/-! What commands and steps leave alone. -/

/-- Settles O49: neither the work of a command nor its end touches these fields. -/
theorem commandsWriteNoOperandRegister : Obligations.CommandsWriteNoOperandRegister := by
  intro i s t h
  obtain ⟨u, hw, he⟩ := exec_workThenEnd h
  have hs := hw.sameRecord
  obtain ⟨⟨hcfg, hops, hlat, hovr, hscript, hrdata⟩, -⟩ := he.frame
  exact ⟨hops.trans hs.ops, hlat.trans hs.lat, hovr.trans hs.ovr, hcfg.trans hs.cfg,
    hscript.trans hs.script, hrdata.trans hs.rdata⟩

/-- Settles O51: of the ends of a command only the success with a result writes RESULT. -/
theorem resultChangesOnlyOnSuccess : Obligations.ResultChangesOnlyOnSuccess := by
  intro i s t h hne
  obtain ⟨u, hw, he⟩ := exec_workThenEnd h
  have hs := hw.sameRecord
  cases he with
  | completedWith r hi => exact ⟨rfl, rfl, rfl, hs.err, hs.errCode, hi⟩
  | _ => exact absurd hs.result hne

/-- Settles O53: a command keeps a valid table, and of the Host's transactions only RESET reaches it. -/
theorem tableStaysUntilReset : Obligations.TableStaysUntilReset := by
  intro s t h hreset hv
  obtain ⟨x, rest, hx, h⟩ | ⟨-, h⟩ | rfl := step_next h
  · cases hostStep_effect h with
    | reset => exact absurd hx (hreset rest)
    | _ => exact ⟨hv, rfl⟩
  · obtain ⟨i, -, h⟩ | rfl := engineStep_next h
    · exact exec_table_of_valid (s := takeTurn s) h hv
    · exact ⟨hv, rfl⟩
  · exact ⟨hv, rfl⟩

/-! The invariants. -/

/-- Settles O56: nothing is written, built, open or running at power-on. -/
theorem powerOnMeetsTheInvariant : Obligations.PowerOnMeetsTheInvariant :=
  ⟨⟨reset_mem_wf, nofun⟩, nofun,
    ⟨nofun, rfl, nofun, fun _ _ => rfl, fun _ => rfl, nofun⟩, nofun, nofun⟩

/-- Settles O58: `EnsureTable` is the only writer of the table, and RESET makes it invalid. -/
theorem stepKeepsTheTableBuilt : Obligations.StepKeepsTheTableBuilt := fun _ _ hs h =>
  step_keeps (P := TableInv) (fun _ hs => hs) hostStep_keeps_tableInv
    (fun _ => engineStep_keeps_tableInv) hs h

/-- Settles O59: by the effects of the Host's transactions and the ends of the Engine's steps. -/
theorem stepKeepsTheStatusConsistent : Obligations.StepKeepsTheStatusConsistent := fun _ _ hs h =>
  step_keeps (P := StatusInv) (fun _ hs => hs) hostStep_keeps_statusInv
    engineStep_keeps_statusInv hs h

/-- Settles O60: each part of the invariant is kept, the sequencer's by phase; the Host's writes that are
no race lie outside source and destination. -/
theorem stepKeepsTheInvariant : Obligations.StepKeepsTheInvariant := fun _ _ hs h =>
  step_keeps (P := Inv) (fun _ hs => hs) hostStep_keeps_inv engineStep_keeps_inv hs h

end Sys2Proof.Machine

/-! SUPPORT. The Host's access to buffer memory and the window as one step, the regions of the running
command (R55), and what an Engine read of an unwritten byte leads to (R43). -/

namespace Sys2Proof.Machine

/-! The Host's turns. -/

theorem takeTurn_of_script {s : State} {x : Turn} {rest : List Turn} (h : s.script = x :: rest) :
    takeTurn s = { s with script := rest } := by
  simp [takeTurn, h]

/-- An MWR at the head of the queue (R70). -/
theorem step_mwr {s : State} {a : Word} {b : Byte} {rest : List Turn}
    (h : s.script = .host (.mwr a b) :: rest) :
    step s =
      if a.toNat < s.cfg.memSize then
        if writeRaces s a then .fault .hostRace
        else .next { s with script := rest, mem := s.mem.write a.toNat b }
      else .refused .refusedAccess := by
  rw [step_of_host h, takeTurn_of_script h]
  rfl

/-- An MRD at the head of the queue (R70). -/
theorem step_mrd {s : State} {a : Word} {rest : List Turn}
    (h : s.script = .host (.mrd a) :: rest) :
    step s =
      if a.toNat < s.cfg.memSize then
        if readRaces s a then .fault .hostRace
        else .next { s with script := rest, rdata := (hostByte s a).setWidth 32 }
      else .refused .refusedAccess := by
  rw [step_of_host h, takeTurn_of_script h]
  rfl

/-- The Host reads a written byte as it was written (R43). -/
theorem hostByte_of_read {s : State} {a : Word} {c : Byte} (h : s.mem.read a.toNat = some c) :
    hostByte s a = c := by
  rw [hostByte, h]

/-- A register access of another width, or at an offset that is no multiple of 4, is not accepted
(R47). -/
theorem registerAccessOk_of_bad {width : AccessWidth} {off : BitVec 8}
    (h : width ≠ .word ∨ off.toNat % 4 ≠ 0) : registerAccessOk width off = false := by
  refine Bool.eq_false_iff.2 fun hok => ?_
  obtain ⟨hw, ho⟩ : width = .word ∧ off.extractLsb' 0 2 = 0 := by
    simpa [registerAccessOk] using hok
  have ha : off.toNat % 4 = 0 := by simpa using congrArg BitVec.toNat ho
  exact h.elim (· hw) (· ha)

/-! The regions of the running command (R55). -/

theorem writeRaces_of_idle {s : State} (h : s.busy = false) (a : Word) : writeRaces s a = false := by
  simp [writeRaces, h]

theorem readRaces_of_idle {s : State} (h : s.busy = false) (a : Word) : readRaces s a = false := by
  simp [readRaces, h]

/-- The commands on an image, with the filter type that is legal (R63). -/
def ImageCommand (i : Instr) : Prop := i = .filt 0 ∨ i = .fcomp 0 ∨ i = .encpng 0

@[simp] theorem Region.empty_contains (a : Nat) : Region.empty.contains a = false := by
  simp [Region.contains, Region.empty]

/-- Which commands read an address, by their rules (R82, R96, R103, R109, R113, R126). -/
theorem sourceRegion_contains_iff (i : Instr) (o : OperandRegs) (a : Nat) :
    (sourceRegion i o).contains a = true ↔
      ((i = .crc ∨ i = .wchunk) ∧ o.srcAddr.toNat ≤ a ∧ a < o.srcAddr.toNat + o.srcLen.toNat) ∨
      (ImageCommand i ∧ o.srcAddr.toNat ≤ a ∧ a < o.srcAddr.toNat + rgbSize o) ∨
      (i = .rgb ∧ o.srcAddr.toNat ≤ a ∧ a < o.srcAddr.toNat + 4 * pixelCount o) := by
  cases i with
  | filt ft | fcomp ft | encpng ft =>
    simp only [sourceRegion]
    split <;> simp_all [ImageCommand]
  | _ => simp [sourceRegion, ImageCommand]

/-- Which commands write an address, by their rules (R103, R109, R113, R126). -/
theorem destRegion_contains_iff (i : Instr) (o : OperandRegs) (a : Nat) :
    (destRegion i o).contains a = true ↔
      (ImageCommand i ∨ i = .rgb) ∧ o.dstAddr.toNat ≤ a ∧ a < o.dstAddr.toNat + o.dstCap.toNat := by
  cases i with
  | filt ft | fcomp ft | encpng ft =>
    simp only [destRegion]
    split <;> simp_all [ImageCommand]
  | _ => simp [destRegion, ImageCommand]

theorem runningSource_of_decode {s : State} {i : Instr} (h : decode s.lat.cmd = .ok i) :
    runningSource s = sourceRegion i s.lat.ops := by
  rw [runningSource, h]

theorem runningDest_of_decode {s : State} {i : Instr} (h : decode s.lat.cmd = .ok i) :
    runningDest s = destRegion i s.lat.ops := by
  rw [runningDest, h]

/-- An illegal word has no region (notes/assumptions/16.md). -/
theorem runningSource_of_illegal {s : State} {r : Rejection} (h : decode s.lat.cmd = .error r) :
    runningSource s = .empty := by
  rw [runningSource, h]

theorem runningDest_of_illegal {s : State} {r : Rejection} (h : decode s.lat.cmd = .error r) :
    runningDest s = .empty := by
  rw [runningDest, h]

/-! Engine reads (R43). -/

/-- A region of `n` bytes at `a` with an unwritten byte. -/
def HasUnwritten (m : Memory) (a : Word) (n : Nat) : Prop :=
  ∃ k, k < n ∧ m.read (a.toNat + k) = none

theorem guarded_of_error {gs : List Guard} {s : State} {f : Fault} (h : firstFailing gs = none) :
    guarded gs s (.error f) = .fault f := by
  rw [guarded_of_pass h, answer]

theorem error_bind {α β : Type} (f : Fault) (k : α → Except Fault β) :
    ((.error f : Except Fault α) >>= k) = .error f := rfl

theorem memRead_of_hasUnwritten {a : Word} {n : Nat} {s : State}
    (hr : RegionInRange s.cfg.memSize a n) (h : HasUnwritten s.mem a n) :
    memRead a n s = .error .uninitRead := by
  obtain ⟨k, hk, h⟩ := h
  exact memRead_of_unwritten hr hk h

/-- A step whose body begins with a read of a region with an unwritten byte is UNINIT_READ. -/
theorem guarded_read_of_hasUnwritten {gs : List Guard} {s u : State} {a : Word} {n : Nat}
    {k : Bytes → Except Fault State} (hg : firstFailing gs = none)
    (hr : RegionInRange u.cfg.memSize a n) (h : HasUnwritten u.mem a n) :
    guarded gs s (memRead a n u >>= k) = .fault .uninitRead := by
  rw [memRead_of_hasUnwritten hr h, error_bind, guarded_of_error hg]

theorem filteredSource_of_hasUnwritten {s : State} (ho : ImageOperandsOk s)
    (h : HasUnwritten s.mem s.lat.ops.srcAddr (rgbSize s.lat.ops)) :
    filteredSource s = .error .uninitRead := by
  obtain ⟨-, -, hr, -⟩ := ho
  have hread : memRead s.lat.ops.srcAddr (rgbSize s.lat.ops) s = .error .uninitRead :=
    memRead_of_hasUnwritten hr h
  rw [filteredSource, hread, error_bind]

theorem execCrc_out_of_range {s : State}
    (h : ¬ RegionInRange s.cfg.memSize s.lat.ops.srcAddr s.lat.ops.srcLen.toNat) :
    execCrc s = .next (raise .memory s.lat.ops.srcAddr s) :=
  guarded_of_fail (firstFailing_cons_of_fails ((rangeGuard_fails ..).2 h))

theorem execCrc_uninitRead {s : State}
    (hr : RegionInRange s.cfg.memSize s.lat.ops.srcAddr s.lat.ops.srcLen.toNat)
    (h : HasUnwritten s.mem s.lat.ops.srcAddr s.lat.ops.srcLen.toNat) :
    execCrc s = .fault .uninitRead :=
  guarded_read_of_hasUnwritten (u := ensureTable s)
    (firstFailing_cons_eq_none.2 ⟨by simpa using hr, rfl⟩) (by simpa using hr) (by simpa using h)

theorem execWchunk_uninitRead {s : State} (hl : s.lat.ops.srcLen.toNat ≤ 0x7FFFFFFF)
    (hr : RegionInRange s.cfg.memSize s.lat.ops.srcAddr s.lat.ops.srcLen.toNat)
    (ho : s.strmOpen = true) (h : HasUnwritten s.mem s.lat.ops.srcAddr s.lat.ops.srcLen.toNat) :
    execWchunk s = .fault .uninitRead :=
  guarded_read_of_hasUnwritten (u := ensureTable s)
    (wchunkGuards_pass.2 ⟨hl, hr, ho⟩) (by simpa using hr) (by simpa using h)

theorem execFilt_uninitRead {s : State} (ho : ImageOperandsOk s)
    (hc : filteredSize s.lat.ops ≤ s.lat.ops.dstCap.toNat)
    (h : HasUnwritten s.mem s.lat.ops.srcAddr (rgbSize s.lat.ops)) :
    execFilt 0 s = .fault .uninitRead := by
  obtain ⟨-, -, hr, -⟩ := id ho
  exact guarded_read_of_hasUnwritten (filtGuards_pass.2 ⟨rfl, ho, hc⟩) hr h

theorem execFcomp_uninitRead {s : State} (ho : ImageOperandsOk s)
    (h : HasUnwritten s.mem s.lat.ops.srcAddr (rgbSize s.lat.ops)) :
    execFcomp 0 s = .fault .uninitRead := by
  rw [execFcomp, filteredSource_of_hasUnwritten ho h, error_bind,
    guarded_of_error (fcompGuards_pass.2 ⟨rfl, ho⟩)]

theorem execRgb_uninitRead {s : State} (ho : PixelOperandsOk s)
    (h : HasUnwritten s.mem s.lat.ops.srcAddr (4 * pixelCount s.lat.ops)) :
    execRgb s = .fault .uninitRead := by
  obtain ⟨-, -, ⟨-, hr, -⟩, -⟩ := id ho
  rw [Nat.mul_assoc] at hr
  exact guarded_read_of_hasUnwritten (rgbGuards_pass.2 ho) hr h

theorem encCompress_uninitRead {s : State} (ho : ImageOperandsOk s)
    (h : HasUnwritten s.mem s.lat.ops.srcAddr (rgbSize s.lat.ops)) :
    encCompress s = .error .uninitRead := by
  rw [encCompress, filteredSource_of_hasUnwritten ho h, error_bind]

theorem encIdat_uninitRead {s : State} (hl : s.zlen.toNat ≤ 0x7FFFFFFF)
    (hr : RegionInRange s.cfg.memSize s.lat.ops.dstAddr s.zlen.toNat)
    (h : HasUnwritten s.mem s.lat.ops.dstAddr s.zlen.toNat) :
    encIdat s = .fault .uninitRead :=
  guarded_read_of_hasUnwritten (firstFailing_cons_eq_none.2 ⟨by simpa using hl, rfl⟩) hr h

end Sys2Proof.Machine

/-! SUPPORT. What commands do to memory (R49) and to OUT (R60, R88), and the lanes of the pixel converter
(R124 to R127). -/

namespace Sys2Proof.Machine

/-! Memory: the commands without a destination. -/

theorem Rejected.mem {gs : List Guard} {s t : State} (h : Rejected gs s t) : t.mem = s.mem := by
  obtain ⟨g, -, rfl⟩ := h
  rfl

theorem append_andThen_mem {k : State → State} (bs : Bytes) (s : State)
    (hk : ∀ u, (k u).mem = u.mem) : ((append bs s).andThen k).mem = s.mem := by
  obtain ⟨-, h⟩ | ⟨n, -, h⟩ := append_cases bs s <;> rw [h]
  · simp [hk]
  · simp

theorem streamOpen_andThen_mem {k : State → State} (s : State)
    (hk : ∀ u, (k u).mem = u.mem) : ((streamOpen s).andThen k).mem = s.mem := by
  obtain ⟨-, h⟩ | ⟨b, -, h⟩ := streamOpen_cases s <;> rw [h]
  · simp [hk]
  · simp

/-- The commands without a destination store nothing (R81, R82, R93 to R96). -/
theorem exec_mem_of_no_destination {i : Instr} {s t : State}
    (hi : i ∈ [.tblinit, .crc, .sopen, .sclose, .wsig, .wchunk]) (h : exec i s = .next t) :
    t.mem = s.mem := by
  cases i with
  | tblinit => cases h; simp
  | crc =>
    obtain h | ⟨-, data, -, rfl⟩ := execCrc_eq_next.1 h
    · exact h.mem
    · simp
  | sopen =>
    cases (execSopen_eq s).symm.trans h
    split
    · rfl
    · exact streamOpen_andThen_mem s fun _ => rfl
  | sclose => cases (execSclose_eq s).symm.trans h; split <;> rfl
  | wsig =>
    cases (execWsig_eq s).symm.trans h
    split
    · exact append_andThen_mem _ s fun _ => rfl
    · rfl
  | wchunk =>
    obtain h | ⟨-, p, -, rfl⟩ := execWchunk_eq_next.1 h
    · exact h.mem
    · rw [append_andThen_mem _ _ (completeWith_mem _), ensureTable_mem]
  | filt ft | fcomp ft | encpng ft | rgb => simp at hi

/-- Outside the destination no command changes a byte. -/
theorem exec_read_outside_destination {i : Instr} {s t : State} {a : Nat}
    (ha : a < s.lat.ops.dstAddr.toNat ∨
      s.lat.ops.dstAddr.toNat + s.lat.ops.dstCap.toNat ≤ a) (h : exec i s = .next t) :
    t.mem.read a = s.mem.read a := by
  obtain ⟨u, hw, he⟩ := exec_workThenEnd h
  obtain ⟨-, -, hmem, -⟩ := he.frame
  rw [hmem]
  obtain hm | ⟨bs, -, hf, hm⟩ := hw.mem_cases
  · rw [hm]
  · rw [hm, Memory.read_writeBytes_outside (by omega)]

/-! OUT. -/

/-- What leaves OUT as it was extends it, by no bytes. -/
theorem extends_out_of_eq {s t : State} (h : t.out = s.out) : s.out <+: t.out := by rw [h]

theorem Rejected.out {gs : List Guard} {s t : State} (h : Rejected gs s t) : t.out = s.out := by
  obtain ⟨g, -, rfl⟩ := h
  rfl

/-- An append keeps what OUT holds, whether the sink takes all its bytes or some (R88). -/
theorem append_extends_out {k : State → State} {s : State} (bs : Bytes)
    (hk : ∀ u, (k u).out = u.out) : s.out <+: ((append bs s).andThen k).out := by
  obtain ⟨-, h⟩ | ⟨n, -, h⟩ := append_cases bs s <;> rw [h]
  · exact ⟨bs, by simp [hk]⟩
  · exact ⟨bs.take n, by simp⟩

/-- The same after the table has been built. -/
theorem ensureTable_append_extends_out {k : State → State} {s : State} (bs : Bytes)
    (hk : ∀ u, (k u).out = u.out) : s.out <+: ((append bs (ensureTable s)).andThen k).out := by
  simpa using append_extends_out (s := ensureTable s) bs hk

theorem compressTo_out {x : Bytes} {k : Nat → State → State} {s t : State}
    (h : compressTo x k s = .ok t) (hk : ∀ n u, (k n u).out = u.out) : t.out = s.out := by
  obtain ⟨-, info, rfl⟩ | ⟨z, -, -, -, rfl⟩ := compressTo_next h
  · rfl
  · exact hk ..

/-- The commands that neither open nor append. -/
def LeavesOut (i : Instr) : Prop :=
  i ∈ [.tblinit, .crc, .sclose, .rgb] ∨ ∃ ft, i = .filt ft ∨ i = .fcomp ft

theorem exec_out_of_leavesOut {i : Instr} {s t : State} (hi : LeavesOut i) (h : exec i s = .next t) :
    t.out = s.out := by
  cases i with
  | tblinit => cases h; simp
  | crc =>
    obtain h | ⟨-, data, -, rfl⟩ := execCrc_eq_next.1 h
    · exact h.out
    · simp
  | sclose => cases (execSclose_eq s).symm.trans h; split <;> rfl
  | filt ft =>
    obtain h | ⟨-, rgb, -, rfl⟩ := execFilt_eq_next.1 h
    · exact h.out
    · rfl
  | fcomp ft =>
    obtain h | ⟨-, rgb, -, h⟩ := execFcomp_eq_next.1 h
    · exact h.out
    · exact compressTo_out h fun _ _ => rfl
  | rgb =>
    obtain h | ⟨-, words, -, rfl⟩ := execRgb_eq_next.1 h
    · exact h.out
    · rfl
  | sopen | wsig | wchunk | encpng ft => simp [LeavesOut] at hi

/-- Past its open, and before it, a phase of ENCPNG only appends (R115 to R120). -/
theorem execEncpng_extends_out {ft : BitVec 3} {s t : State} (hp : s.phase ≠ .opening)
    (h : execEncpng ft s = .next t) : s.out <+: t.out := by
  obtain ⟨-, h | ⟨-, rfl⟩⟩ | ⟨hp', rfl⟩ | ⟨-, rfl⟩ | ⟨-, rfl⟩ | ⟨-, -, rgb, -, h⟩ |
    ⟨-, h | ⟨-, -, z, -, rfl⟩⟩ | ⟨-, rfl⟩ | ⟨-, rfl⟩ := execEncpng_eq_next h
  · exact extends_out_of_eq h.out
  · exact extends_out_of_eq rfl
  · exact absurd hp' hp
  · exact append_extends_out _ fun _ => rfl
  · exact ensureTable_append_extends_out _ fun _ => rfl
  · exact extends_out_of_eq (compressTo_out h fun _ _ => rfl)
  · exact extends_out_of_eq h.out
  · exact append_extends_out _ fun _ => rfl
  · exact append_extends_out _ fun _ => rfl
  · exact extends_out_of_eq rfl

/-- Nothing but an open removes bytes from OUT (R60). -/
theorem exec_extends_out {i : Instr} {s t : State} (hi : i ≠ .sopen)
    (hp : ¬ (s.phase = .opening ∧ ∃ ft, i = .encpng ft)) (h : exec i s = .next t) :
    s.out <+: t.out := by
  have kept (hi : LeavesOut i) : s.out <+: t.out := extends_out_of_eq (exec_out_of_leavesOut hi h)
  cases i with
  | sopen => exact absurd rfl hi
  | wsig =>
    cases (execWsig_eq s).symm.trans h
    split
    · exact append_extends_out _ fun _ => rfl
    · exact extends_out_of_eq rfl
  | wchunk =>
    obtain h | ⟨-, p, -, rfl⟩ := execWchunk_eq_next.1 h
    · exact extends_out_of_eq h.out
    · exact ensureTable_append_extends_out _ fun _ => rfl
  | encpng ft => exact execEncpng_extends_out (fun e => hp ⟨e, ft, rfl⟩) h
  | tblinit | crc | sclose | rgb | filt ft | fcomp ft => exact kept (by simp [LeavesOut])

/-! Pixels. -/

/-- Of four bytes put side by side the conversion takes the lower three, in their order; the high byte
goes nowhere (R124). -/
theorem pixelToRgb_append (b3 b2 b1 b0 : Byte) : pixelToRgb (b3 ++ b2 ++ b1 ++ b0) = [b2, b1, b0] := by
  have red : (b3 ++ b2 ++ b1 ++ b0).extractLsb' 16 8 = b2 := by
    rw [BitVec.extractLsb'_append_eq_of_le (by decide), BitVec.extractLsb'_append_eq_of_le (by decide),
      BitVec.extractLsb'_append_eq_of_add_le (by decide), BitVec.extractLsb'_eq_self]
  have green : (b3 ++ b2 ++ b1 ++ b0).extractLsb' 8 8 = b1 := by
    rw [BitVec.extractLsb'_append_eq_of_le (by decide),
      BitVec.extractLsb'_append_eq_of_add_le (by decide), BitVec.extractLsb'_eq_self]
  have blue : (b3 ++ b2 ++ b1 ++ b0).extractLsb' 0 8 = b0 := by
    rw [BitVec.extractLsb'_append_eq_of_add_le (by decide), BitVec.extractLsb'_eq_self]
  rw [pixelToRgb, red, green, blue]

/-- The RGB bytes of the pixel word that four bytes of memory hold (R48, R124, R125). -/
def laneBytes (order : ByteOrder) (b0 b1 b2 b3 : Byte) : Bytes :=
  match order with
  | .le => [b2, b1, b0]
  | .be => [b1, b2, b3]

theorem pixelToRgb_pixelWord (order : ByteOrder) (b0 b1 b2 b3 : Byte) :
    pixelToRgb (pixelWord order b0 b1 b2 b3) = laneBytes order b0 b1 b2 b3 :=
  match order with
  | .le => pixelToRgb_append b3 b2 b1 b0
  | .be => pixelToRgb_append b0 b1 b2 b3

/-- The bytes from pixel `i` on are those of the pixel words from `i` on (R127). -/
theorem toRgb_drop (order : ByteOrder) {words : Bytes} {i : Nat} (h : 4 * i ≤ words.length) :
    (toRgb order words).drop (3 * i) = toRgb order (words.drop (4 * i)) := by
  induction i generalizing words with
  | zero => rfl
  | succ i ih =>
    match words, h with
    | b0 :: b1 :: b2 :: b3 :: rest, h =>
      have hr : 4 * i ≤ rest.length := by simpa [Nat.mul_add] using h
      simpa [Nat.mul_add, toRgb, pixelToRgb] using ih hr

/-- A list with four elements left past index `k` is split there. -/
theorem drop_eq_four {words : Bytes} {k : Nat} (h : k + 4 ≤ words.length) :
    ∃ b0 b1 b2 b3 rest, words.drop k = b0 :: b1 :: b2 :: b3 :: rest := by
  have hl : 4 ≤ (words.drop k).length := by rw [List.length_drop]; omega
  match words.drop k, hl with
  | b0 :: b1 :: b2 :: b3 :: rest, _ => exact ⟨b0, b1, b2, b3, rest, rfl⟩

end Sys2Proof.Machine

/-! The statements about memory and OUT, settled. -/

namespace Sys2Proof.Machine

/-- Settles O57: the Host's write is to an existing byte, and a command stores inside its destination,
which is in range. -/
theorem stepKeepsMemoryCanonical : Obligations.StepKeepsMemoryCanonical := fun _ _ hs h =>
  step_keeps (P := MemoryInv) (fun _ hs => hs) hostStep_keeps_memoryInv
    (fun _ => engineStep_keeps_memoryInv) hs h

/-- Settles O6: beside an idle device no access is a race, and each is the next step. -/
theorem hostMemoryAccessIsPerByte : Obligations.HostMemoryAccessIsPerByte := by
  intro s a rest hb ha
  refine ⟨fun b hs => ?write, fun hs => ?read⟩
  case write =>
    refine ⟨s.mem.write a.toNat b, ?_, Memory.read_write_same ..,
      fun c => Memory.read_write_other _ b⟩
    simp [step_mwr hs, ha, writeRaces_of_idle hb]
  case read =>
    refine ⟨hostByte s a, ?_, fun _ => hostByte_of_read⟩
    simp [step_mrd hs, ha, readRaces_of_idle hb]

/-- Settles O7: each access fails the test of R47 or of R70, which comes before everything else. -/
theorem badHostAccessesAreRefused : Obligations.BadHostAccessesAreRefused := by
  intro s rest
  refine ⟨fun width off hbad => ⟨fun hs => ?_, fun v hs => ?_⟩,
    fun a ha => ⟨fun hs => ?_, fun b hs => ?_⟩⟩
  · simp [step_of_host hs, hostStep, hostRd, registerAccessOk_of_bad hbad]
  · simp [step_of_host hs, hostStep, hostWr, registerAccessOk_of_bad hbad]
  · rw [step_mrd hs, if_neg (Nat.not_lt.2 ha)]
  · rw [step_mwr hs, if_neg (Nat.not_lt.2 ha)]

/-- Settles O8: the regions of the latched word's command decide. -/
theorem hostAccessToARunningCommandsRegionsIsARace :
    Obligations.HostAccessToARunningCommandsRegionsIsARace := by
  intro s a rest hb ha o runs image source dest
  have hsource : (runningSource s).contains a.toNat = true ↔ source := by
    cases hd : decode s.lat.cmd with
    | error r => simp [runningSource_of_illegal hd, source, image, runs, hd]
    | ok i =>
      rw [runningSource_of_decode hd, sourceRegion_contains_iff]
      simp only [source, image, runs, hd, Except.ok.injEq]
      rfl
  have hdest : (runningDest s).contains a.toNat = true ↔ dest := by
    cases hd : decode s.lat.cmd with
    | error r => simp [runningDest_of_illegal hd, dest, image, runs, hd]
    | ok i =>
      rw [runningDest_of_decode hd, destRegion_contains_iff]
      simp only [dest, image, runs, hd, Except.ok.injEq]
      rfl
  have hwrite : writeRaces s a = true ↔ source ∨ dest := by
    rw [writeRaces, hb, Bool.true_and, Bool.or_eq_true, hsource, hdest]
  have hread : readRaces s a = true ↔ dest := by rw [readRaces, hb, Bool.true_and, hdest]
  refine ⟨fun b hs => ?write, fun hs => ?read⟩
  case write =>
    rw [step_mwr hs, if_pos ha]
    exact ⟨fun h => if_pos (hwrite.2 h), fun h => if_neg (mt hwrite.1 h)⟩
  case read =>
    rw [step_mrd hs, if_pos ha]
    exact ⟨fun h => if_pos (hread.2 h),
      fun h => ⟨hostByte s a, if_neg (mt hread.1 h), fun _ => hostByte_of_read⟩⟩

/-- Settles O19: CRC's range check fails, or the first read of the step meets the unwritten byte. -/
theorem badReadRegionsStop : Obligations.BadReadRegionsStop := by
  intro s o unwritten
  refine ⟨execCrc_out_of_range, fun hr hu => ⟨?crc, ?wchunk⟩,
    fun ho hu => ⟨?filt, ?fcomp, ?compress⟩, execRgb_uninitRead, ?idat⟩
  case crc => exact execCrc_uninitRead hr hu
  case wchunk => exact fun hl hopen => execWchunk_uninitRead hl hr hopen hu
  case filt => exact fun hc => execFilt_uninitRead ho hc hu
  case fcomp => exact execFcomp_uninitRead ho hu
  case compress =>
    intro hp
    simp only [exec, execEncpng, hp]
    rw [encCompress_uninitRead ho hu, answer]
  case idat =>
    intro hp hl hr hu
    simp only [exec, execEncpng, hp]
    exact encIdat_uninitRead hl hr hu

/-- Settles O45: from pixel `i` on the conversion is that of the words from `i` on, and the first of them
gives three of its four bytes. -/
theorem rgbLanesAreIndependent : Obligations.RgbLanesAreIndependent := by
  intro words n i hl hi
  obtain ⟨b0, b1, b2, b3, rest, hd⟩ := drop_eq_four (words := words) (k := 4 * i) (by omega)
  have word (j : Nat) : words[4 * i + j]? = (b0 :: b1 :: b2 :: b3 :: rest)[j]? := by
    rw [← hd, List.getElem?_drop]
  have lane (order : ByteOrder) (j : Nat) : (toRgb order words)[3 * i + j]? =
      (laneBytes order b0 b1 b2 b3 ++ toRgb order rest)[j]? := by
    rw [← List.getElem?_drop, toRgb_drop order (by omega), hd, toRgb, pixelToRgb_pixelWord]
  have le := lane .le
  have be := lane .be
  exact ⟨fun order => toRgb_length order hl, (le 0).trans (word 2).symm,
    (le 1).trans (word 1).symm, (le 2).trans (word 0).symm,
    (be 0).trans (word 1).symm, (be 1).trans (word 2).symm, (be 2).trans (word 3).symm⟩

/-- Settles O50: a command's work leaves memory alone or stores inside the destination. -/
theorem commandsStoreInsideTheirDestinationOnly :
    Obligations.CommandsStoreInsideTheirDestinationOnly := by
  rintro i s t a h (hi | ha)
  · rw [exec_mem_of_no_destination hi h]
  · exact exec_read_outside_destination ha h

/-- Settles O52: an append adds at the end, and only an open does anything else to OUT. -/
theorem outputGrowsOnlyAtItsEnd : Obligations.OutputGrowsOnlyAtItsEnd := fun _ _ _ h hi hp =>
  ⟨exec_extends_out hi hp h, fun hl => exec_out_of_leavesOut hl h⟩

end Sys2Proof.Machine

/-! SUPPORT. The fields of a command word, and the words the decoder takes (R61 to R67). -/

namespace Sys2Proof.Machine

/-! The fields of a word. -/

@[simp] theorem opField_toNat (w : Word) : (opField w).toNat = w.toNat % 256 := by
  simp [opField, BitVec.extractLsb'_toNat]

@[simp] theorem filtField_toNat (w : Word) : (filtField w).toNat = w.toNat / 256 % 8 := by
  simp [filtField, BitVec.extractLsb'_toNat, Nat.shiftRight_eq_div_pow]

@[simp] theorem rsvField_toNat (w : Word) : (rsvField w).toNat = w.toNat / 2048 := by
  simp only [rsvField, BitVec.extractLsb'_toNat, Nat.shiftRight_eq_div_pow]
  omega

@[simp] theorem commandWord_toNat (ft : BitVec 3) (op : Byte) :
    (commandWord ft op).toNat = 256 * ft.toNat + op.toNat := by
  simp only [commandWord, toNat_append_eq_add, BitVec.ofNat_eq_ofNat, BitVec.toNat_ofNat]
  omega

/-- The three fields are the whole word (R61). -/
theorem commandWord_eq_iff {ft : BitVec 3} {op : Byte} {w : Word} :
    commandWord ft op = w ↔ rsvField w = 0 ∧ filtField w = ft ∧ opField w = op := by
  simp only [← BitVec.toNat_inj, commandWord_toNat, rsvField_toNat, filtField_toNat, opField_toNat,
    BitVec.ofNat_eq_ofNat, BitVec.toNat_ofNat]
  omega

/-! The decoder. -/

/-- An operation without a filter type takes the FILT field of its command only, 0 (R63). -/
theorem fields_of_plainOperation {i j : Instr} {op : Byte} {ft : BitVec 3}
    (h : plainOperation i ft = .ok j) (hi : i.filterField = 0) (ho : op = i.operation) :
    ft = j.filterField ∧ op = j.operation := by
  unfold plainOperation at h
  split at h
  · cases h
    exact ⟨‹ft = 0›.trans hi.symm, ho⟩
  · cases h

/-- The operation map takes the fields of a command to the command (R62). -/
theorem decodeOperation_fields (i : Instr) : decodeOperation i.operation i.filterField = .ok i := by
  cases i <;> rfl

/-- The operation map reads a command from the fields of that command only (R62). -/
theorem fields_of_decodeOperation {op : Byte} {ft : BitVec 3} {i : Instr}
    (h : decodeOperation op ft = .ok i) : ft = i.filterField ∧ op = i.operation := by
  by_cases h1 : op = 0x01
  · subst h1; exact fields_of_plainOperation h rfl rfl
  by_cases h2 : op = 0x02
  · subst h2; exact fields_of_plainOperation h rfl rfl
  by_cases h3 : op = 0x03
  · subst h3; exact fields_of_plainOperation h rfl rfl
  by_cases h4 : op = 0x04
  · subst h4; exact fields_of_plainOperation h rfl rfl
  by_cases h5 : op = 0x05
  · subst h5; exact fields_of_plainOperation h rfl rfl
  by_cases h6 : op = 0x06
  · subst h6; exact fields_of_plainOperation h rfl rfl
  by_cases h7 : op = 0x07
  · subst h7; cases h; exact ⟨rfl, rfl⟩
  by_cases h8 : op = 0x08
  · subst h8; cases h; exact ⟨rfl, rfl⟩
  by_cases h9 : op = 0x09
  · subst h9; cases h; exact ⟨rfl, rfl⟩
  by_cases h10 : op = 0x0A
  · subst h10; exact fields_of_plainOperation h rfl rfl
  rw [decodeOperation, if_neg h1, if_neg h2, if_neg h3, if_neg h4, if_neg h5, if_neg h6, if_neg h7,
    if_neg h8, if_neg h9, if_neg h10] at h
  cases h

theorem decode_eq_ok {w : Word} {i : Instr} :
    decode w = .ok i ↔ rsvField w = 0 ∧ filtField w = i.filterField ∧ opField w = i.operation := by
  unfold decode
  constructor
  · intro h
    split at h
    · exact ⟨‹_›, fields_of_decodeOperation h⟩
    · cases h
  · rintro ⟨hr, hf, ho⟩
    rw [if_pos hr, hf, ho, decodeOperation_fields]

theorem decode_eq_ok_iff_encode {w : Word} {i : Instr} : decode w = .ok i ↔ encode i = w := by
  rw [decode_eq_ok, encode, commandWord_eq_iff]

/-- The decoder in numbers (R61, R65). -/
theorem decode_eq_ok_iff_toNat {w : Word} {i : Instr} :
    decode w = .ok i ↔ w.toNat / 2048 = 0 ∧ w.toNat / 256 % 8 = i.filterField.toNat ∧
      w.toNat % 256 = i.operation.toNat := by
  simp only [decode_eq_ok, ← BitVec.toNat_inj, rsvField_toNat, filtField_toNat, opField_toNat,
    BitVec.ofNat_eq_ofNat, BitVec.toNat_ofNat, Nat.zero_mod]

/-- The operations are numbered 1 to 10, and those without a filter type are not 7 to 9 (R62, R63). -/
theorem operation_bounds (i : Instr) :
    0 < i.operation.toNat ∧ i.operation.toNat < 0x0B ∧
      (i.operation.toNat = 7 ∨ i.operation.toNat = 8 ∨ i.operation.toNat = 9 ∨
        i.filterField.toNat = 0) := by
  cases i <;> simp [Instr.operation, Instr.filterField]

/-! The rows of spec/opcode_table.json. -/

/-- The word of every command lies in the command's row, which is one of the table's. -/
theorem encode_in_tableRow (i : Instr) :
    i.tableRow.holds (encode i) = true ∧ i.tableRow ∈ opcodeTable := by
  have row : Laws.TableRow.Statement i := by
    cases i with
    | tblinit => exact Laws.TableRow.tblinit
    | crc => exact Laws.TableRow.crc
    | sopen => exact Laws.TableRow.sopen
    | sclose => exact Laws.TableRow.sclose
    | wsig => exact Laws.TableRow.wsig
    | wchunk => exact Laws.TableRow.wchunk
    | filt ft => exact Laws.TableRow.filt ft
    | fcomp ft => exact Laws.TableRow.fcomp ft
    | encpng ft => exact Laws.TableRow.encpng ft
    | rgb => exact Laws.TableRow.rgb
  obtain ⟨hholds, hmem, -, -⟩ := row
  exact ⟨hholds, hmem⟩

/-- A row's value is a command word with FILT 0, and its mask has all of RSV and OP. -/
theorem tableRow_fields (i : Instr) :
    i.tableRow.value = commandWord 0 i.operation ∧
      rsvField i.tableRow.mask = BitVec.allOnes 21 ∧ opField i.tableRow.mask = BitVec.allOnes 8 := by
  cases i <;> dsimp only [Instr.tableRow, Instr.operation] <;> decide

/-- A row fixes RSV to 0 and OP to its operation, and the bits of FILT that its mask has to 0. -/
theorem tableRow_holds_iff (i : Instr) (w : Word) :
    i.tableRow.holds w = true ↔
      rsvField w = 0 ∧ filtField w &&& filtField i.tableRow.mask = 0 ∧ opField w = i.operation := by
  obtain ⟨hvalue, hrsv, hop⟩ := tableRow_fields i
  have hr : rsvField (w &&& i.tableRow.mask) = rsvField w := by
    rw [rsvField, BitVec.extractLsb'_and, ← rsvField, ← rsvField, hrsv, BitVec.and_allOnes]
  have ho : opField (w &&& i.tableRow.mask) = opField w := by
    rw [opField, BitVec.extractLsb'_and, ← opField, ← opField, hop, BitVec.and_allOnes]
  have hf : filtField (w &&& i.tableRow.mask) = filtField w &&& filtField i.tableRow.mask :=
    BitVec.extractLsb'_and
  rw [TableRow.holds, beq_iff_eq, hvalue, eq_comm, commandWord_eq_iff, hr, hf, ho]

/-- A word of a row decodes to a command. -/
theorem decode_of_tableRow_holds {i : Instr} {w : Word} (h : i.tableRow.holds w = true) :
    ∃ j, decode w = .ok j := by
  obtain ⟨hr, hf, ho⟩ := (tableRow_holds_iff i w).1 h
  cases i with
  | filt _ => exact ⟨.filt (filtField w), decode_eq_ok.2 ⟨hr, rfl, ho⟩⟩
  | fcomp _ => exact ⟨.fcomp (filtField w), decode_eq_ok.2 ⟨hr, rfl, ho⟩⟩
  | encpng _ => exact ⟨.encpng (filtField w), decode_eq_ok.2 ⟨hr, rfl, ho⟩⟩
  | tblinit | crc | sopen | sclose | wsig | wchunk | rgb =>
    refine ⟨_, decode_eq_ok.2 ⟨hr, ?_, ho⟩⟩
    exact BitVec.and_allOnes.symm.trans hf

/-- The rows of two different operations share no word. -/
theorem not_both_tableRows {i j : Instr} (h : i.operation ≠ j.operation) (w : Word) :
    ¬ (i.tableRow.holds w = true ∧ j.tableRow.holds w = true) := by
  rintro ⟨hi, hj⟩
  obtain ⟨-, -, hi⟩ := (tableRow_holds_iff i w).1 hi
  obtain ⟨-, -, hj⟩ := (tableRow_holds_iff j w).1 hj
  exact h (hi.symm.trans hj)

end Sys2Proof.Machine

/-! SUPPORT. Acceptance and the Engine's turn as one step (R73 to R75), and the errors a step can end in
(R128, R132, R133). -/

namespace Sys2Proof.Machine

/-! One step. -/

/-- A Host write to CMD at the head of the queue (R70). -/
theorem step_wr_command {s : State} {v : Word} {rest : List Turn}
    (h : s.script = .host (.wr .word 0 v) :: rest) :
    step s = .next (writeCommand v { s with script := rest }) := by
  rw [step_of_host h, takeTurn_of_script h]
  rfl

/-- While a command runs, a turn that is not the Host's is the Engine's (R75). -/
theorem step_of_engine {s : State} (hb : s.busy = true)
    (hs : ∀ t, s.script.head? ≠ some (.host t)) : step s = engineStep (takeTurn s) := by
  have hm : nextMover s = .engine := by
    unfold nextMover
    split
    · rename_i t rest h
      exact absurd (by rw [h]; rfl) (hs t)
    · rw [if_pos hb]
  rw [step, hm]

theorem engineStep_of_decode {s : State} {i : Instr} (h : decode s.lat.cmd = .ok i) :
    engineStep s = exec i s := by
  rw [engineStep, h]

theorem engineStep_of_illegal {s : State} (h : ∀ i, decode s.lat.cmd ≠ .ok i) :
    engineStep s = .next (illegalCommand s) := by
  unfold engineStep
  split
  · exact absurd ‹_› (h _)
  · rfl

theorem decodeTableWord_eq_some {nbits w : Nat} {i : Instr} :
    decodeTableWord nbits w = some i ↔ decode (tableWord nbits w) = .ok i := by
  unfold decodeTableWord
  split <;> simp_all

/-! The errors of a step. -/

/-- How a step stands to the record of errors: a failed check, raised with no other effect; no new error;
or one of the errors that come after a first effect (R133). -/
inductive ErrorOutcome (s : State) : State → Prop
  /-- A failed check, or an illegal word. -/
  | early (e : DevError) (info : Word) : ErrorOutcome s (raise e info s)
  /-- No new error. -/
  | quiet {t : State} (h : t.errCode = s.errCode) : ErrorOutcome s t
  /-- IO_OPEN, IO_WRITE or COMPRESSION. -/
  | late {t : State} (e : DevError) (h : t.errCode = some e) (he : e.isPreCheck = false) :
      ErrorOutcome s t

theorem Rejected.errorOutcome {gs : List Guard} {s t : State} (h : Rejected gs s t) :
    ErrorOutcome s t := by
  obtain ⟨g, -, rfl⟩ := h
  exact .early g.error g.info

/-- An append, of a state `u` with no new error: the rest of the step runs, or IO_WRITE is raised. -/
theorem append_errorOutcome {k : State → State} {s u : State} (bs : Bytes)
    (hu : u.errCode = s.errCode) (hk : ∀ v, (k v).errCode = v.errCode) :
    ErrorOutcome s ((append bs u).andThen k) := by
  obtain ⟨-, h⟩ | ⟨n, -, h⟩ := append_cases bs u <;> rw [h]
  · exact .quiet (by simp [hk, hu])
  · exact .late .ioWrite rfl rfl

theorem streamOpen_errorOutcome {k : State → State} {s : State}
    (hk : ∀ u, (k u).errCode = u.errCode) : ErrorOutcome s ((streamOpen s).andThen k) := by
  obtain ⟨-, h⟩ | ⟨b, -, h⟩ := streamOpen_cases s <;> rw [h]
  · exact .quiet (by simp [hk])
  · exact .late .ioOpen rfl rfl

theorem compressTo_errorOutcome {x : Bytes} {k : Nat → State → State} {s t : State}
    (h : compressTo x k s = .ok t) (hk : ∀ n u, (k n u).errCode = u.errCode) : ErrorOutcome s t := by
  obtain ⟨-, info, rfl⟩ | ⟨z, -, -, -, rfl⟩ := compressTo_next h
  · exact .late .compression rfl rfl
  · exact .quiet (hk ..)

theorem execEncpng_errorOutcome {ft : BitVec 3} {s t : State} (h : execEncpng ft s = .next t) :
    ErrorOutcome s t := by
  obtain ⟨-, h | ⟨-, rfl⟩⟩ | ⟨-, rfl⟩ | ⟨-, rfl⟩ | ⟨-, rfl⟩ | ⟨-, -, rgb, -, h⟩ |
    ⟨-, h | ⟨-, -, z, -, rfl⟩⟩ | ⟨-, rfl⟩ | ⟨-, rfl⟩ := execEncpng_eq_next h
  · exact h.errorOutcome
  · exact .quiet rfl
  · exact streamOpen_errorOutcome fun _ => rfl
  · exact append_errorOutcome _ rfl fun _ => rfl
  · exact append_errorOutcome _ (ensureTable_errCode s) fun _ => rfl
  · exact compressTo_errorOutcome h fun _ _ => rfl
  · exact h.errorOutcome
  · exact append_errorOutcome _ rfl fun _ => rfl
  · exact append_errorOutcome _ rfl fun _ => rfl
  · exact .quiet rfl

/-- Every command's step, with respect to its errors. -/
theorem exec_errorOutcome {i : Instr} {s t : State} (h : exec i s = .next t) : ErrorOutcome s t := by
  cases i with
  | tblinit => cases h; exact .quiet (by simp)
  | crc =>
    obtain h | ⟨-, data, -, rfl⟩ := execCrc_eq_next.1 h
    · exact h.errorOutcome
    · exact .quiet (by simp)
  | sopen =>
    cases (execSopen_eq s).symm.trans h
    split
    · exact .early ..
    · exact streamOpen_errorOutcome fun _ => rfl
  | sclose =>
    cases (execSclose_eq s).symm.trans h
    split
    · exact .quiet rfl
    · exact .early ..
  | wsig =>
    cases (execWsig_eq s).symm.trans h
    split
    · exact append_errorOutcome _ rfl fun _ => rfl
    · exact .early ..
  | wchunk =>
    obtain h | ⟨-, p, -, rfl⟩ := execWchunk_eq_next.1 h
    · exact h.errorOutcome
    · exact append_errorOutcome _ (ensureTable_errCode s) fun _ => rfl
  | filt ft =>
    obtain h | ⟨-, rgb, -, rfl⟩ := execFilt_eq_next.1 h
    · exact h.errorOutcome
    · exact .quiet rfl
  | fcomp ft =>
    obtain h | ⟨-, rgb, -, h⟩ := execFcomp_eq_next.1 h
    · exact h.errorOutcome
    · exact compressTo_errorOutcome h fun _ _ => rfl
  | encpng ft => exact execEncpng_errorOutcome h
  | rgb =>
    obtain h | ⟨-, words, -, rfl⟩ := execRgb_eq_next.1 h
    · exact h.errorOutcome
    · exact .quiet rfl

theorem engineStep_errorOutcome {s t : State} (h : engineStep s = .next t) : ErrorOutcome s t := by
  obtain ⟨i, -, h⟩ | rfl := engineStep_next h
  · exact exec_errorOutcome h
  · exact .early ..

/-! The checks of FILT, FCOMP and ENCPNG's EXEC step (R103, R109, R113). -/

/-- The step makes the checks of an image command with the filter field `ft`. -/
def ChecksImage (i : Instr) (ft : BitVec 3) (s : State) : Prop :=
  i = .filt ft ∨ i = .fcomp ft ∨ (i = .encpng ft ∧ s.phase = .exec)

/-- The checks all three make, in their order; FILT's capacity check, the overlap check and ENCPNG's
check of the stream come after them. -/
def commonChecks (ft : BitVec 3) (s : State) : List Guard :=
  let o := s.lat.ops
  [ filterGuard ft,
    dimGuard o,
    sourceSizeGuard o (rgbSize o),
    rangeGuard s o.srcAddr (rgbSize o),
    rangeGuard s o.dstAddr o.dstCap.toNat ]

/-- The checks each of them makes after the common ones. -/
def laterChecks (i : Instr) (s : State) : List Guard :=
  let o := s.lat.ops
  match i with
  | .filt _ => [capacityGuard o (filteredSize o), overlapGuard o (rgbSize o)]
  | .encpng _ => [overlapGuard o (rgbSize o), requireClosed s]
  | _ => [overlapGuard o (rgbSize o)]

/-- The check that comes after checks that pass, and fails, is the first failing one. -/
theorem firstFailing_append_cons {gs hs : List Guard} {g : Guard} (hgs : firstFailing gs = none)
    (hg : g.fails = true) : firstFailing (gs ++ g :: hs) = some g := by
  unfold firstFailing at *
  rw [List.find?_append, hgs, Option.none_or, List.find?_cons_of_pos hg]

theorem firstFailing_append_eq_none {gs hs : List Guard} :
    firstFailing (gs ++ hs) = none ↔ firstFailing gs = none ∧ firstFailing hs = none := by
  simp [firstFailing, List.find?_append]

/-- The first check that fails, `g` after the passing `gs`, is raised with no other effect (R132). -/
theorem exec_of_failing {i : Instr} {ft : BitVec 3} {s : State} {g : Guard} {gs hs : List Guard}
    (hi : ChecksImage i ft s) (hl : commonChecks ft s ++ laterChecks i s = gs ++ g :: hs)
    (hgs : firstFailing gs = none) (hg : g.fails = true) :
    exec i s = .next (raise g.error g.info s) := by
  have hfirst : firstFailing (commonChecks ft s ++ laterChecks i s) = some g :=
    hl ▸ firstFailing_append_cons hgs hg
  obtain rfl | rfl | ⟨rfl, hp⟩ := hi
  · exact guarded_of_fail hfirst
  · exact guarded_of_fail hfirst
  · simp only [exec, execEncpng, hp]
    exact guarded_of_fail hfirst

/-- A filter type other than 0 is the first error (R63, R65 test 4). -/
theorem exec_illegalFilter {i : Instr} {ft : BitVec 3} {s : State} (hi : ChecksImage i ft s)
    (hf : ft ≠ 0) : exec i s = .next (raise .illegalFilter (ft.setWidth 32) s) :=
  exec_of_failing hi (gs := []) rfl rfl ((filterGuard_fails ft).2 hf)

theorem commonChecks_pass {ft : BitVec 3} {s : State} :
    firstFailing (commonChecks ft s) = none ↔
      ft = 0 ∧ ImageDimsOk s.lat.ops ∧ rgbSize s.lat.ops ≤ s.lat.ops.srcLen.toNat ∧
        RegionInRange s.cfg.memSize s.lat.ops.srcAddr (rgbSize s.lat.ops) ∧
        RegionInRange s.cfg.memSize s.lat.ops.dstAddr s.lat.ops.dstCap.toNat := by
  simp [commonChecks, firstFailing_cons_eq_none, firstFailing_nil]

end Sys2Proof.Machine

/-! The statements about encoding, acceptance and errors, settled. -/

namespace Sys2Proof.Machine

/-- Settles O10: a word is the encoding of the command it decodes to, since both say the same of its
three fields. -/
theorem decodeAndEncodeAgree : Obligations.DecodeAndEncodeAgree :=
  ⟨fun _ => decode_eq_ok_iff_encode.2 rfl, fun _ _ => decode_eq_ok_iff_encode.1⟩

/-- Settles O11: the word of a command lies in its row, a word of a row has the fields of a command, and
the rows have different operations. -/
theorem decoderAcceptsExactlyTheTableRows : Obligations.DecoderAcceptsExactlyTheTableRows := by
  refine fun w => ⟨⟨?accepted, ?row⟩, ?disjoint⟩
  case accepted =>
    rintro ⟨i, hi⟩
    obtain rfl := decode_eq_ok_iff_encode.1 hi
    obtain ⟨hholds, hmem⟩ := encode_in_tableRow i
    exact ⟨_, hmem, hholds⟩
  case row =>
    rintro ⟨r, hr, hholds⟩
    obtain ⟨i, -, rfl⟩ := List.mem_map.1 hr
    exact decode_of_tableRow_holds hholds
  case disjoint =>
    have hops : [Instr.tblinit, .crc, .sopen, .sclose, .wsig, .wchunk, .filt 0, .fcomp 0, .encpng 0,
        .rgb].Pairwise (fun i j => i.operation ≠ j.operation) := by decide
    exact List.pairwise_map.2 (hops.imp fun h => not_both_tableRows h w)

/-- Settles O12: the decoder computes on each word. -/
theorem wordsOfTheEncodingDecode : Obligations.WordsOfTheEncodingDecode :=
  ⟨rfl, rfl, rfl, rfl, rfl, rfl, rfl, rfl, rfl⟩

/-- Settles O13: the turn is the Engine's, which runs what the latched word decodes to. -/
theorem engineTurnRunsTheDecodedCommand : Obligations.EngineTurnRunsTheDecodedCommand :=
  fun _ _ hb hs hd => (step_of_engine hb hs).trans (engineStep_of_decode hd)

/-- Settles O14: the placed turn is the Engine's, and the latched word is the one placed. -/
theorem fetchedWordIsRunByTheNextStep : Obligations.FetchedWordIsRunByTheNextStep :=
  fun _ _ _ _ hd =>
    (step_of_engine rfl (by simp [State.withFetchWord])).trans
      (engineStep_of_decode (decodeTableWord_eq_some.1 hd))

/-- Settles O15: the write is the next step, and an idle device accepts it. -/
theorem commandWrittenWhileIdleIsAccepted : Obligations.CommandWrittenWhileIdleIsAccepted := by
  intro s v rest hb hs
  simp [step_wr_command hs, writeCommand, hb, accept]

/-- Settles O16: the write is the next step, and a busy device drops it. -/
theorem commandWrittenWhileBusyIsDropped : Obligations.CommandWrittenWhileBusyIsDropped := by
  intro s v rest hb hs
  simp [step_wr_command hs, writeCommand, hb]

/-- Settles O54: of the ends of a step only the next phase, which is ENCPNG's, keeps BUSY. -/
theorem commandsButEncpngTakeOneStep : Obligations.CommandsButEncpngTakeOneStep :=
  fun _ _ _ h hi => exec_not_busy hi h

/-- Settles O48: a pre-check error is not one of the late ones, and a failed check does nothing else. -/
theorem preCheckErrorsArePrecise : Obligations.PreCheckErrorsArePrecise := by
  intro s t e hs h ht he
  cases engineStep_errorOutcome h with
  | early e' info => cases ht; rfl
  | quiet hq => cases (hq.trans hs).symm.trans ht
  | late e' hl he' =>
    cases hl.symm.trans ht
    exact absurd (he'.symm.trans he) nofun

/-- Settles O31: each clause names the first check that fails, after the ones that pass. -/
theorem imageCommandErrorsInOrder : Obligations.ImageCommandErrorsInOrder := by
  intro s i ft hi o n f
  have hi : ChecksImage i ft s := hi
  refine ⟨exec_illegalFilter hi, fun hf hd => ?dim, fun hf hd hl => ?sourceSize,
    fun hf hd hl hs => ?source, fun hf hd hl hs ht => ?dest, fun hf hd hl hs ht hfilt hc => ?capacity,
    fun hf hd hl hs ht hc ho => ?overlap, fun hf ho henc hopen => ?stream⟩
  case dim =>
    refine exec_of_failing hi (gs := [filterGuard ft]) rfl ?_ ((dimGuard_fails o).2 hd)
    simp [firstFailing_cons_eq_none, firstFailing_nil, hf]
  case sourceSize =>
    refine exec_of_failing hi (gs := [filterGuard ft, dimGuard o]) rfl ?_
      ((sourceSizeGuard_fails o n).2 hl)
    simp [firstFailing_cons_eq_none, firstFailing_nil, hf, hd]
  case source =>
    refine exec_of_failing hi (gs := [filterGuard ft, dimGuard o, sourceSizeGuard o n]) rfl ?_
      ((rangeGuard_fails s o.srcAddr n).2 hs)
    simp [firstFailing_cons_eq_none, firstFailing_nil, hf, hd, hl]
  case dest =>
    refine exec_of_failing hi
      (gs := [filterGuard ft, dimGuard o, sourceSizeGuard o n, rangeGuard s o.srcAddr n]) rfl ?_
      ((rangeGuard_fails s o.dstAddr o.dstCap.toNat).2 ht)
    simp [firstFailing_cons_eq_none, firstFailing_nil, hf, hd, hl, hs]
  case capacity =>
    subst hfilt
    exact exec_of_failing hi (gs := commonChecks ft s) rfl
      (commonChecks_pass.2 ⟨hf, hd, hl, hs, ht⟩) ((capacityGuard_fails o f).2 hc)
  case overlap =>
    have hcommon := commonChecks_pass.2 ⟨hf, hd, hl, hs, ht⟩
    have hover := (overlapGuard_fails o n).2 ho
    obtain rfl | rfl | ⟨rfl, -⟩ := id hi
    · have hcap : ¬ (capacityGuard o f).fails = true := by
        rw [capacityGuard_fails, Nat.not_lt]
        exact hc (by rw [hf])
      exact exec_of_failing hi (gs := commonChecks ft s ++ [capacityGuard o f]) rfl
        (firstFailing_append_eq_none.2 ⟨hcommon, firstFailing_cons_eq_none.2 ⟨hcap, rfl⟩⟩) hover
    · exact exec_of_failing hi (gs := commonChecks ft s) rfl hcommon hover
    · exact exec_of_failing hi (gs := commonChecks ft s) rfl hcommon hover
  case stream =>
    subst henc
    exact exec_of_failing hi (gs := fcompGuards ft s) rfl (fcompGuards_pass.2 ⟨hf, ho⟩)
      ((requireClosed_fails s).2 hopen)

/-- Settles O9: a word that decodes has RSV 0, an OP of the ten and a filter type only where the
operation has one, so the words of the first clause are rejected; the fields of the other words are those
of a command. -/
theorem execStepDecodesByTheTestsOfR65 : Obligations.ExecStepDecodesByTheTestsOfR65 := by
  intro s hp w op ft rsv
  refine ⟨fun hbad => ?illegal, fun hr hop hft => ?filter, fun hr hft => ?runs⟩
  case illegal =>
    refine engineStep_of_illegal fun i hi => ?_
    obtain ⟨hrsv, hfilt, hopn⟩ := decode_eq_ok_iff_toNat.1 hi
    have := operation_bounds i
    omega
  case filter =>
    obtain ⟨i, hi, hd⟩ : ∃ i, ChecksImage i (filtField s.lat.cmd) s ∧ decode s.lat.cmd = .ok i := by
      have hfield := (filtField_toNat s.lat.cmd).symm
      obtain h | h | h := hop
      · exact ⟨_, .inl rfl, decode_eq_ok_iff_toNat.2 ⟨hr, hfield, h⟩⟩
      · exact ⟨_, .inr (.inl rfl), decode_eq_ok_iff_toNat.2 ⟨hr, hfield, h⟩⟩
      · exact ⟨_, .inr (.inr ⟨rfl, hp⟩), decode_eq_ok_iff_toNat.2 ⟨hr, hfield, h⟩⟩
    have hne : filtField s.lat.cmd ≠ 0 := fun h => hft ((filtField_toNat _).symm.trans (h ▸ rfl))
    have hinfo : BitVec.ofNat 32 ft = (filtField s.lat.cmd).setWidth 32 := by
      rw [← BitVec.ofNat_toNat, filtField_toNat]
    rw [engineStep_of_decode hd, exec_illegalFilter hi hne, hinfo]
    rfl
  case runs =>
    have run (i : Instr) (hf : i.filterField = 0) (h : op = i.operation.toNat) :
        engineStep s = exec i s :=
      engineStep_of_decode (decode_eq_ok_iff_toNat.2 ⟨hr, hft.trans (hf ▸ rfl), h⟩)
    exact ⟨run .tblinit rfl, run .crc rfl, run .sopen rfl, run .sclose rfl, run .wsig rfl,
      run .wchunk rfl, run (.filt 0) rfl, run (.fcomp 0) rfl, run (.encpng 0) rfl, run .rgb rfl⟩

end Sys2Proof.Machine

/-! SUPPORT. The CRC table and the checksum (R76 to R80), and TBLINIT and CRC as whole next states
(R81, R82). -/

namespace Sys2Proof.Machine

/-! The table. -/

@[simp] theorem builtTable_get (n : Byte) : builtTable.get n.toFin = tblEntry n := by
  simp [builtTable, Vector.get_eq_getElem]

/-- `EnsureTable` touches the table and its valid bit alone (R77). -/
theorem ensureTable_eq (s : State) :
    ensureTable s =
      { s with tbl := if s.tblValid then s.tbl else builtTable, tblValid := true } := by
  cases hv : s.tblValid with
  | true => rw [ensureTable_of_valid hv, if_pos rfl, ← hv]
  | false => rw [ensureTable, hv]; rfl

theorem ensureTable_eq_of_tableInv {s : State} (h : TableInv s) :
    ensureTable s = { s with tbl := builtTable, tblValid := true } := by
  rw [← ensureTable_tbl h, ensureTable_eq]

/-! The checksum. -/

/-- The reference byte update, with TblEntry in place of the table read (R83). -/
theorem crcStep_builtTable :
    crcStep builtTable = fun (c : Word) (b : Byte) =>
      tblEntry ((c ^^^ b.setWidth 32).setWidth 8) ^^^ (c >>> 8) := by
  funext c b
  rw [crcStep, builtTable_get]

theorem xor_mask_xor_mask (c : Word) : c ^^^ 0xFFFFFFFF ^^^ 0xFFFFFFFF = c := by
  rw [BitVec.xor_assoc, BitVec.xor_self, BitVec.xor_zero]

@[simp] theorem crc32_nil (tbl : Vector Word 256) (seed : Word) : crc32 tbl seed [] = seed :=
  xor_mask_xor_mask seed

/-- The final mask of one piece and the first mask of the next cancel (R80). -/
theorem crc32_crc32 (tbl : Vector Word 256) (seed : Word) (a b : Bytes) :
    crc32 tbl (crc32 tbl seed a) b = crc32 tbl seed (a ++ b) := by
  simp only [crc32, xor_mask_xor_mask, List.foldl_append]

/-! CRC. -/

/-- CRC of a region in range and written (R82). -/
theorem execCrc_of_read {s : State} {data : Bytes}
    (hr : RegionInRange s.cfg.memSize s.lat.ops.srcAddr s.lat.ops.srcLen.toNat)
    (hd : s.mem.readBytes s.lat.ops.srcAddr.toNat s.lat.ops.srcLen.toNat = some data) :
    execCrc s =
      .next (completeWith (crc32 (ensureTable s).tbl s.lat.ops.seed data) (ensureTable s)) :=
  execCrc_eq_next.2 (.inr ⟨hr, data, hd, rfl⟩)

end Sys2Proof.Machine

/-! The statements about the CRC32 engine, settled. -/

namespace Sys2Proof.Machine

/-- Settles O17: TBLINIT is `EnsureTable` and the completion, and the built table is read by its index. -/
theorem tblinitBuildsTheTable : Obligations.TblinitBuildsTheTable := by
  refine ⟨fun s => ?_, builtTable_get⟩
  rw [exec, execTblinit_eq, ensureTable_eq]
  rfl

/-- Settles O18: the read succeeds, `EnsureTable` leaves the built table, and a region of no bytes reads
as no data. -/
theorem crcGivesTheChecksumOfTheRegion : Obligations.CrcGivesTheChecksumOfTheRegion := by
  refine fun s data ht hr hd => ⟨?next, fun h0 => ?empty⟩
  case next =>
    rw [exec, execCrc_of_read hr hd, ensureTable_eq_of_tableInv ht]
    rfl
  case empty =>
    rw [h0] at hd
    cases hd
    exact crc32_nil ..

/-- Settles O21: each table read is a TblEntry. -/
theorem checksumNeedsNoStoredTable : Obligations.ChecksumNeedsNoStoredTable := by
  intro seed data
  rw [crc32, crcStep_builtTable]

/-- Settles O20: the masks cancel, for any table, and a valid table is the built one. The reference value
is computed from TblEntry, by O21. -/
theorem checksumLaws : Obligations.ChecksumLaws :=
  ⟨crc32_nil _, crc32_crc32 _, fun _ _ _ h => by rw [ensureTable_tbl h],
    (checksumNeedsNoStoredTable 0 _).trans (by decide +kernel)⟩

end Sys2Proof.Machine

/-! SUPPORT. A request to the sink with its answer known (R85, R88), and the chunk WCHUNK writes,
with its checks passed (R90, R96). -/

namespace Sys2Proof.Machine

/-! Requests to the sink. -/

theorem streamOpen_of_success {s : State} (h : openAnswer s = .success) :
    streamOpen s = .went (emptyStream (takeOpen s)) := by
  rw [streamOpen, h]

theorem streamOpen_of_failure {s : State} {truncated : Bool} (h : openAnswer s = .failure truncated) :
    streamOpen s = .raised (raise .ioOpen 0 (refuseOpen truncated (takeOpen s))) := by
  rw [streamOpen, h]

/-- A successful append lands all of its bytes. -/
theorem append_of_success {s : State} (bs : Bytes) (h : writeAnswer s = .success) :
    append bs s = .went { takeWrite s with
      out := s.out ++ bs, outCount := s.outCount + BitVec.ofNat 32 bs.length } := by
  rw [append, h, ← takeWrite_out s, ← takeWrite_outCount s]
  rfl

/-- A failing append lands its first bytes, and OUT_COUNT after it is ERRINFO (R88, R129). -/
theorem append_of_failure {s : State} {k : Nat} (bs : Bytes) (h : writeAnswer s = .failure k) :
    append bs s = .raised (raise .ioWrite (s.outCount + BitVec.ofNat 32 (min k bs.length))
      { takeWrite s with
        out := s.out ++ bs.take k
        outCount := s.outCount + BitVec.ofNat 32 (min k bs.length) }) := by
  rw [append, h, ← List.length_take, ← takeWrite_out s, ← takeWrite_outCount s]
  rfl

/-- Taking the sink's answer leaves a built table as it is. -/
theorem takeWrite_ensureTable {s : State} (h : TableInv s) :
    takeWrite (ensureTable s) = { takeWrite s with tbl := builtTable, tblValid := true } := by
  rw [ensureTable_eq_of_tableInv h]
  unfold takeWrite
  cases s.writes <;> rfl

/-! The chunk. -/

/-- The length field of a chunk is the register that gave the length of its payload (R90). -/
theorem chunkBytes_of_length {n : Word} {p : Bytes} (h : p.length = n.toNat) (tbl : Vector Word 256)
    (t : Bytes) : chunkBytes tbl t p = be32 n ++ t ++ p ++ be32 (crc32 tbl 0 (t ++ p)) := by
  rw [chunkBytes, h, BitVec.ofNat_toNat, BitVec.setWidth_eq, chunkCrc]

/-- The chunk at the latched operands of WCHUNK with payload `p`, its CRC over the built table. -/
def latchedChunk (s : State) (p : Bytes) : Bytes :=
  be32 s.lat.ops.srcLen ++ be32 s.lat.ops.chunkType ++ p ++
    be32 (crc32 builtTable 0 (be32 s.lat.ops.chunkType ++ p))

theorem latchedChunk_length {s : State} {p : Bytes} (h : p.length = s.lat.ops.srcLen.toNat) :
    (latchedChunk s p).length = 12 + s.lat.ops.srcLen.toNat := by
  simp only [latchedChunk, List.length_append, be32_length, h]
  omega

/-- What a WCHUNK with payload `p` needs to reach the sink: a table that is the built one if it is valid
(R77), the checks passed (R96), and the payload written in memory. -/
structure ChunkReady (s : State) (p : Bytes) : Prop where
  table : TableInv s
  isOpen : s.strmOpen = true
  length : s.lat.ops.srcLen.toNat ≤ 0x7FFFFFFF
  range : RegionInRange s.cfg.memSize s.lat.ops.srcAddr s.lat.ops.srcLen.toNat
  payload : s.mem.readBytes s.lat.ops.srcAddr.toNat s.lat.ops.srcLen.toNat = some p

theorem ChunkReady.payload_length {s : State} {p : Bytes} (h : ChunkReady s p) :
    p.length = s.lat.ops.srcLen.toNat :=
  (Memory.readBytes_eq_some.1 h.payload).1

/-- WCHUNK builds the table, requests one append of the whole chunk and gives its CRC (R96). -/
theorem execWchunk_of_ready {s : State} {p : Bytes} (h : ChunkReady s p) :
    execWchunk s = .next ((append (latchedChunk s p) (ensureTable s)).andThen
      (completeWith (crc32 builtTable 0 (be32 s.lat.ops.chunkType ++ p)))) := by
  refine execWchunk_eq_next.2 (.inr ⟨⟨h.length, h.range, h.isOpen⟩, p, h.payload, ?_⟩)
  rw [ensureTable_tbl h.table, chunkBytes_of_length h.payload_length, chunkCrc, latchedChunk]

end Sys2Proof.Machine

/-! The statements about the chunk writer, settled. -/

namespace Sys2Proof.Machine

/-- Settles O22: the check passes, and the sink's answer decides the rest. -/
theorem sopenOpensTheStream : Obligations.SopenOpensTheStream := by
  intro s hc ha
  rw [exec, execSopen_eq, if_neg (Bool.eq_false_iff.1 hc), streamOpen_of_success ha]
  rfl

/-- Settles O23: the check fails, or the sink refuses. -/
theorem sopenErrors : Obligations.SopenErrors := by
  refine fun s => ⟨fun ho => ?opened, fun truncated hc ha => ?refused⟩
  case opened =>
    rw [exec, execSopen_eq, if_pos ho]
    rfl
  case refused =>
    rw [exec, execSopen_eq, if_neg (Bool.eq_false_iff.1 hc), streamOpen_of_failure ha,
      ← takeOpen_out s]
    rfl

/-- Settles O24, by the one check of SCLOSE. -/
theorem scloseClosesTheStream : Obligations.ScloseClosesTheStream := by
  refine fun s => ⟨fun ho => ?opened, fun hc => ?closed⟩
  case opened =>
    rw [exec, execSclose_eq, if_pos ho]
    rfl
  case closed =>
    rw [exec, execSclose_eq, if_neg (Bool.eq_false_iff.1 hc)]
    rfl

/-- Settles O25, by the check and then the sink's answer to one append of the signature. -/
theorem wsigAppendsTheSignature : Obligations.WsigAppendsTheSignature := by
  refine fun s => ⟨fun hc => ?closed, fun ho => ⟨fun ha => ?whole, fun k ha => ?part⟩⟩
  case closed =>
    rw [exec, execWsig_eq, if_neg (Bool.eq_false_iff.1 hc)]
  case whole =>
    rw [exec, execWsig_eq, if_pos ho, append_of_success signature ha]
    rfl
  case part =>
    rw [exec, execWsig_eq, if_pos ho, append_of_failure signature ha]
    rfl

/-- Settles O26: the append of the whole chunk, which is 12 bytes longer than its payload. -/
theorem wchunkAppendsTheChunk : Obligations.WchunkAppendsTheChunk := by
  intro s p ht ho hl hr hp ha
  have h : ChunkReady s p := ⟨ht, ho, hl, hr, hp⟩
  rw [exec, execWchunk_of_ready h, append_of_success _ ((writeAnswer_ensureTable s).trans ha),
    takeWrite_ensureTable ht, latchedChunk_length h.payload_length, ensureTable_out,
    ensureTable_outCount]
  rfl

/-- Settles O27: each check passes where the ones before it have, and the first failing one is raised. -/
theorem wchunkPreCheckErrors : Obligations.WchunkPreCheckErrors := by
  refine fun s => ⟨fun hl => ?length, fun hl hr => ?memory, fun hl hr hc => ?closed⟩
  case length =>
    have hfail := (lengthGuard_fails _).2 hl
    exact execWchunk_eq_next.2 (.inl ⟨_, firstFailing_cons_of_fails hfail, rfl⟩)
  case memory =>
    have hpass := mt (lengthGuard_fails _).1 (Nat.not_lt.2 hl)
    have hfail := (rangeGuard_fails ..).2 hr
    exact execWchunk_eq_next.2 (.inl ⟨_,
      (firstFailing_cons_of_passes hpass).trans (firstFailing_cons_of_fails hfail), rfl⟩)
  case closed =>
    have hpass := mt (lengthGuard_fails _).1 (Nat.not_lt.2 hl)
    have hpass' := mt (rangeGuard_fails ..).1 (not_not.2 hr)
    have hfail := (requireOpen_fails s).2 hc
    exact execWchunk_eq_next.2 (.inl ⟨_, (firstFailing_cons_of_passes hpass).trans
      ((firstFailing_cons_of_passes hpass').trans (firstFailing_cons_of_fails hfail)), rfl⟩)

/-- Settles O28: the append of the first bytes of the chunk, after which nothing of the command runs. -/
theorem wchunkWriteFailureLandsAPrefix : Obligations.WchunkWriteFailureLandsAPrefix := by
  intro s p k ht ho hl hr hp ha
  have h : ChunkReady s p := ⟨ht, ho, hl, hr, hp⟩
  rw [exec, execWchunk_of_ready h, append_of_failure _ ((writeAnswer_ensureTable s).trans ha),
    takeWrite_ensureTable ht, latchedChunk_length h.payload_length, ensureTable_out,
    ensureTable_outCount]
  rfl

end Sys2Proof.Machine

/-! SUPPORT. The filtered scanlines byte by byte (R102), and FILT and Compress as whole next states, with
the operands' checks met (R103, R106, R109, R110, R117). -/

namespace Sys2Proof.Machine

/-! The filtered scanlines. -/

theorem filtered_succ (rgb : Bytes) (w h : Nat) :
    filtered rgb w (h + 1) =
      (0x00 :: rgb.take (3 * w)) ++ filtered (rgb.drop (3 * w)) w h := rfl

/-- Byte `k` of the filtered scanlines, within the first row or by the rows after it. -/
theorem filtered_getElem? {rgb : Bytes} {w h k : Nat} (hl : rgb.length = 3 * w * h)
    (hk : k < h * (3 * w + 1)) :
    (filtered rgb w h)[k]? =
      if k % (3 * w + 1) = 0 then some 0x00
      else rgb[k / (3 * w + 1) * (3 * w) + k % (3 * w + 1) - 1]? := by
  induction h generalizing rgb k with
  | zero => simp at hk
  | succ h ih =>
    rw [Nat.mul_succ] at hl
    rw [Nat.succ_mul] at hk
    have hrow : (0x00 :: rgb.take (3 * w)).length = 3 * w + 1 := by
      rw [List.length_cons, List.length_take]
      omega
    rw [filtered_succ]
    by_cases hfirst : k < 3 * w + 1
    · rw [List.getElem?_append_left (hrow.symm ▸ hfirst), Nat.mod_eq_of_lt hfirst,
        Nat.div_eq_of_lt hfirst, Nat.zero_mul, Nat.zero_add]
      cases k with
      | zero => rfl
      | succ j =>
        rw [List.getElem?_cons_succ, List.getElem?_take_of_lt (by omega), if_neg (by omega)]
        rfl
    · obtain ⟨j, rfl⟩ := Nat.exists_eq_add_of_le (Nat.le_of_not_lt hfirst)
      have hrest : (rgb.drop (3 * w)).length = 3 * w * h := by
        rw [List.length_drop]
        omega
      rw [List.getElem?_append_right (by omega), hrow, Nat.add_sub_cancel_left,
        ih hrest (by omega), Nat.add_mod_left, Nat.add_div_left j (by omega)]
      split
      · rfl
      · rw [List.getElem?_drop, Nat.succ_mul (j / _)]
        congr 1
        omega

/-- The filtered image of a source in memory has the size of R100. -/
theorem SourceImage.filtered_length {s : State} {rgb : Bytes} (h : SourceImage s rgb) :
    (filtered rgb s.lat.ops.width.toNat s.lat.ops.height.toNat).length = filteredSize s.lat.ops :=
  Machine.filtered_length (Memory.readBytes_eq_some.1 h).1

/-! Stores at the destination. -/

/-- What holds of memory `m'` once `bs` has been stored in `m` at `a`: the bytes read back, and the bytes
outside them are as before. -/
def Stores (m : Memory) (a : Nat) (bs : Bytes) (m' : Memory) : Prop :=
  m'.readBytes a bs.length = some bs ∧
    ∀ c, (c < a ∨ a + bs.length ≤ c) → m'.read c = m.read c

theorem Memory.stores_writeBytes (m : Memory) (a : Nat) (bs : Bytes) :
    Stores m a bs (m.writeBytes a bs) :=
  ⟨m.readBytes_writeBytes a bs, fun _ => Memory.read_writeBytes_outside⟩

/-- A byte inside a store is written. -/
theorem Memory.isSome_read_writeBytes {m : Memory} {a c : Nat} {bs : Bytes} (h1 : a ≤ c)
    (h2 : c < a + bs.length) : ((m.writeBytes a bs).read c).isSome = true := by
  rw [Memory.read_writeBytes, if_pos ⟨h1, h2⟩, List.getElem?_eq_getElem (by omega)]
  rfl

/-! Compress. -/

/-- Compress where Deflate gives `z` and it fits: `z` is stored, and the step goes on (R109, R117). -/
theorem compressTo_of_fits {x z : Bytes} {k : Nat → State → State} {s : State}
    (ho : ImageOperandsOk s) (hz : deflate s.cfg.compressor x = some z)
    (hf : z.length ≤ s.lat.ops.dstCap.toNat) :
    compressTo x k s = .ok (k z.length (storeAtDest z s)) := by
  obtain ⟨-, -, -, hd, -⟩ := ho
  exact compressTo_eq_ok.2 (.inr (.inr ⟨z, hz, hf, _, memWrite_eq_ok.2 ⟨hd.mono hf, rfl⟩, rfl⟩))

/-- ERRINFO of COMPRESSION: 0 where Deflate gives none, and the length of what does not fit, cut to 32
bits, where it gives some (R106). -/
def compressionInfo (r : Option Bytes) : Word :=
  (r.map fun z => BitVec.ofNat 32 (min z.length 0xFFFFFFFF)).getD 0

/-- Compress where Deflate gives none or what does not fit: COMPRESSION over a scrambled destination
(R106, R110). -/
theorem compressTo_of_not_fits {x : Bytes} {k : Nat → State → State} {s : State}
    (ho : ImageOperandsOk s)
    (hz : ∀ z, deflate s.cfg.compressor x = some z → s.lat.ops.dstCap.toNat < z.length) :
    compressTo x k s = .ok (raise .compression (compressionInfo (deflate s.cfg.compressor x))
      { storeAtDest (scrambled s s.lat.ops.dstCap.toNat) s with draws := s.draws + 1 }) := by
  obtain ⟨-, -, -, hd, -⟩ := ho
  have hm := memScramble_eq_ok.2 ⟨hd, rfl⟩
  refine compressTo_eq_ok.2 ?_
  cases hr : deflate s.cfg.compressor x with
  | none => exact .inl ⟨rfl, _, hm, rfl⟩
  | some z => exact .inr (.inl ⟨z, rfl, hz z hr, _, hm, rfl⟩)

/-! The commands that compress. -/

/-- A step that compresses the source into the destination, the rest of the step being `k`: FCOMP, and
ENCPNG's COMPRESS phase (R109, R117). -/
inductive Compresses (s : State) : Instr → (Nat → State → State) → Prop
  | fcomp : Compresses s (.fcomp 0) fun n => completeWith (BitVec.ofNat 32 n)
  | encpng (hp : s.phase = .compress) : Compresses s (.encpng 0) storeLength

/-- Where the operands' checks are met and the source is written, such a step is Compress of the filtered
image. -/
theorem Compresses.exec_eq {s t : State} {i : Instr} {k : Nat → State → State} {rgb : Bytes}
    (h : Compresses s i k) (ho : ImageOperandsOk s) (hs : SourceImage s rgb)
    (ht : compressTo (filtered rgb s.lat.ops.width.toNat s.lat.ops.height.toNat) k s = .ok t) :
    exec i s = .next t := by
  cases h with
  | fcomp => exact execFcomp_eq_next.2 (.inr ⟨⟨rfl, ho⟩, rgb, hs, ht⟩)
  | encpng hp =>
    obtain ⟨-, -, hr, -⟩ := ho
    rw [exec, execEncpng, hp]
    exact answer_eq_next.2 (encCompress_eq_ok.2 ⟨hr, rgb, hs, ht⟩)

end Sys2Proof.Machine

/-! SUPPORT. The reference compressor: the length of its output, and that its stored blocks decompress to
its input (R104, R105, R108). -/

namespace Sys2Proof.Machine

/-! Bits. -/

@[simp] theorem byteBits_length (b : Byte) : (byteBits b).length = 8 := by simp [byteBits]

theorem bitsOf_cons (b : Byte) (d : Bytes) : bitsOf (b :: d) = byteBits b ++ bitsOf d := rfl

theorem bitsOf_append (d e : Bytes) : bitsOf (d ++ e) = bitsOf d ++ bitsOf e := List.flatMap_append

theorem bitsOf_length (d : Bytes) : (bitsOf d).length = 8 * d.length := by
  induction d with
  | nil => rfl
  | cons b d ih =>
    rw [bitsOf_cons, List.length_append, byteBits_length, ih, List.length_cons]
    omega

/-- The lowest `n` bits of a number, in stream order, are read back as the number they form. -/
theorem takeBits_testBit (n m : Nat) (rest : List Bool) :
    takeBits n ((List.range n).map m.testBit ++ rest) = some (m % 2 ^ n, rest) := by
  induction n generalizing m with
  | zero => simp [takeBits, Nat.mod_one]
  | succ n ih =>
    have hlow : (m.testBit 0).toNat = m % 2 := by
      rw [Nat.toNat_testBit, Nat.pow_zero, Nat.div_one]
    have hrest : (List.range (n + 1)).map m.testBit =
        m.testBit 0 :: (List.range n).map (m / 2).testBit := by
      rw [List.range_succ_eq_map, List.map_cons, List.map_map]
      exact congrArg _ (List.map_congr_left fun i _ => Nat.testBit_succ ..)
    rw [hrest, List.cons_append, takeBits, ih, hlow, Nat.pow_succ', Nat.mod_mul]

theorem takeBits_byteBits (b : Byte) (rest : List Bool) :
    takeBits 8 (byteBits b ++ rest) = some (b.toNat, rest) := by
  rw [← Nat.mod_eq_of_lt b.isLt]
  exact takeBits_testBit 8 b.toNat rest

/-- The byte at bit `k` of a word, as bits of the word. -/
theorem byteBits_extractLsb' {w : Nat} (v : BitVec w) (k : Nat) :
    byteBits (v.extractLsb' k 8) = (List.range 8).map fun i => v.toNat.testBit (k + i) := by
  refine List.map_congr_left fun i hi => ?_
  rw [BitVec.getLsbD_extractLsb', decide_eq_true (List.mem_range.1 hi), Bool.true_and]
  rfl

theorem bitsOf_le16 (v : BitVec 16) : bitsOf (le16 v) = (List.range 16).map v.toNat.testBit := by
  rw [le16, bitsOf_cons, bitsOf_cons, byteBits_extractLsb', byteBits_extractLsb']
  rfl

theorem takeBits_le16 (v : BitVec 16) (rest : List Bool) :
    takeBits 16 (bitsOf (le16 v) ++ rest) = some (v.toNat, rest) := by
  rw [bitsOf_le16, takeBits_testBit, Nat.mod_eq_of_lt v.isLt]

theorem takeBytes_bitsOf (x : Bytes) (rest : List Bool) :
    takeBytes x.length (bitsOf x ++ rest) = some (x, rest) := by
  induction x with
  | nil => rfl
  | cons b x ih =>
    rw [bitsOf_cons, List.append_assoc, List.length_cons, takeBytes, takeBits_byteBits]
    simp [ih]

/-! Stored blocks. -/

/-- LEN and its complement add up to 65535. -/
theorem toNat_add_toNat_not (v : BitVec 16) : v.toNat + (~~~ v).toNat = 65535 := by
  have := v.isLt
  rw [BitVec.toNat_not]
  omega

/-- A stored block after its three header bits: the five bits to the next byte boundary are skipped. -/
theorem inflateStored_storedBlock {x : Bytes} (hx : x.length ≤ maxStored) (pad : List Bool)
    (hp : pad.length = 5) (rest acc : Bytes) :
    inflateStored (pad ++ bitsOf (le16 (BitVec.ofNat 16 x.length) ++
        le16 (~~~ BitVec.ofNat 16 x.length) ++ x ++ rest)) acc =
      some (x.reverse ++ acc, bitsOf rest) := by
  have hlen : (BitVec.ofNat 16 x.length).toNat = x.length := by
    rw [BitVec.toNat_ofNat]
    exact Nat.mod_eq_of_lt (Nat.lt_succ_of_le hx)
  have hsum := toNat_add_toNat_not (BitVec.ofNat 16 x.length)
  rw [hlen] at hsum
  have hpad (d : Bytes) : (pad ++ bitsOf d).drop ((pad ++ bitsOf d).length % 8) = bitsOf d := by
    rw [List.length_append, hp, bitsOf_length, Nat.add_mul_mod_self_left]
    exact List.drop_left' hp
  rw [inflateStored, hpad]
  simp only [bitsOf_append, List.append_assoc]
  rw [takeBits_le16, hlen]
  simp only [takeBits_le16]
  rw [if_pos hsum, takeBytes_bitsOf]

/-- The header of a stored block is read as its first bit and the type 0. -/
theorem inflateBlocks_storedBlock {final : Byte} {last : Bool}
    (hf : byteBits final = last :: false :: false :: List.replicate 5 false) {x : Bytes}
    (hx : x.length ≤ maxStored) (n : Nat) (rest acc : Bytes) :
    inflateBlocks (n + 1) (bitsOf (storedBlock final x ++ rest)) acc =
      if last then some (x.reverse ++ acc, bitsOf rest)
      else inflateBlocks n (bitsOf rest) (x.reverse ++ acc) := by
  have hbits : bitsOf (storedBlock final x ++ rest) =
      last :: false :: false :: (List.replicate 5 false ++ bitsOf (le16 (BitVec.ofNat 16 x.length) ++
        le16 (~~~ BitVec.ofNat 16 x.length) ++ x ++ rest)) := by
    rw [storedBlock, List.cons_append, List.cons_append, List.cons_append, bitsOf_cons, hf]
    rfl
  have hstored := inflateStored_storedBlock hx (List.replicate 5 false) rfl rest acc
  rw [hbits, inflateBlocks]
  cases last <;> simp only [takeBits, inflateBlock, Bool.toNat_false, if_true, hstored] <;> rfl

/-- The number of bytes of the stored blocks: five more for each block (R108). -/
theorem storedBlocks_length {fuel : Nat} {x : Bytes} (h : x.length < fuel) :
    (storedBlocks fuel x).length = x.length + 5 * max 1 ((x.length + 65534) / 65535) := by
  induction fuel generalizing x with
  | zero => simp at h
  | succ fuel ih =>
    have hblock (final : Byte) (y : Bytes) : (storedBlock final y).length = y.length + 5 := by
      simp [storedBlock, le16]
    rw [storedBlocks, maxStored]
    split
    · rw [hblock]
      omega
    · rw [List.length_append, hblock, ih (by rw [List.length_drop]; omega), List.length_take,
        List.length_drop]
      omega

/-- The stored blocks of `x` decompress to `x`. -/
theorem inflateBlocks_storedBlocks {fuel n : Nat} {x : Bytes} (h : x.length < fuel) (hn : fuel ≤ n)
    (acc : Bytes) :
    inflateBlocks n (bitsOf (storedBlocks fuel x)) acc = some (x.reverse ++ acc, []) := by
  induction fuel generalizing n x acc with
  | zero => simp at h
  | succ fuel ih =>
    obtain ⟨n, rfl⟩ := Nat.exists_eq_add_of_le' (Nat.lt_of_lt_of_le (Nat.succ_pos _) hn)
    rw [storedBlocks]
    split
    · rw [← List.append_nil (storedBlock _ _), inflateBlocks_storedBlock (last := true) rfl ‹_›,
        if_pos rfl]
      rfl
    · rename_i hx
      have hrest : (x.drop maxStored).length < fuel := by
        rw [List.length_drop]
        unfold maxStored at hx ⊢
        omega
      rw [inflateBlocks_storedBlock (last := false) rfl (List.length_take_le ..), if_neg nofun,
        ih hrest (by omega), ← List.append_assoc, ← List.reverse_append, List.take_append_drop]

theorem inflate_storedBlocks (x : Bytes) : inflate (storedBlocks (x.length + 1) x) = some x := by
  have hlen := storedBlocks_length (Nat.lt_add_one x.length)
  have hbits := bitsOf_length (storedBlocks (x.length + 1) x)
  have h := inflateBlocks_storedBlocks (n := (bitsOf (storedBlocks (x.length + 1) x)).length + 1)
    (Nat.lt_add_one x.length) (by omega) []
  rw [inflate]
  simp [h]

/-! The container (R104). -/

/-- The reference compressor gives a zlib stream of its input. -/
theorem deflateRef_isZlibStreamOf (x : Bytes) : isZlibStreamOf x (deflateRef x) = true := by
  have hheader : zlibHeaderOk 0x78 0x01 = true := by decide
  simpa [deflateRef, isZlibStreamOf, inflate_storedBlocks] using hheader

end Sys2Proof.Machine

/-! SUPPORT. A whole ENCPNG with nobody else to move: each Engine step leads to the next phase or ends the
command, the source stays, and a command that ends without error leaves the PNG file (R112 to R121). -/

namespace Sys2Proof.Machine

/-! One phase. -/

/-- The Engine steps a running ENCPNG still takes, at most (R145). -/
def Phase.stepsLeft : Phase → Nat
  | .idle => 0
  | .exec => 8
  | .opening => 7
  | .sig => 6
  | .ihdr => 5
  | .compress => 4
  | .idat => 3
  | .iend => 2
  | .closing => 1

theorem Phase.stepsLeft_le (p : Phase) : p.stepsLeft ≤ 8 := by
  cases p <;> decide

/-- The step has ended the command in an error, or the command runs on at the phase `p`. -/
def FailsOrGoesTo (p : Phase) (t : State) : Prop :=
  (t.busy = false ∧ t.err = true) ∨ (t.busy = true ∧ t.phase = p)

theorem Rejected.failsOrGoesTo {gs : List Guard} {s t : State} {p : Phase} (h : Rejected gs s t) :
    FailsOrGoesTo p t := by
  obtain ⟨g, -, rfl⟩ := h
  exact .inl ⟨rfl, rfl⟩

theorem append_failsOrGoesTo {p : Phase} {s : State} (bs : Bytes) (hb : s.busy = true) :
    FailsOrGoesTo p ((append bs s).andThen (toPhase p)) := by
  obtain ⟨-, h⟩ | ⟨k, -, h⟩ := append_cases bs s <;> rw [h]
  · exact .inr ⟨by simpa using hb, rfl⟩
  · exact .inl ⟨rfl, rfl⟩

theorem encOpen_failsOrGoesTo {s : State} (hb : s.busy = true) :
    FailsOrGoesTo .sig (encOpen s) := by
  unfold encOpen
  obtain ⟨-, h⟩ | ⟨b, -, h⟩ := streamOpen_cases s <;> rw [h]
  · exact .inr ⟨by simpa using hb, rfl⟩
  · exact .inl ⟨rfl, rfl⟩

theorem compressTo_failsOrGoesTo {x : Bytes} {s t : State} (hb : s.busy = true)
    (h : compressTo x storeLength s = .ok t) : FailsOrGoesTo .idat t := by
  obtain ⟨-, info, rfl⟩ | ⟨z, -, -, -, rfl⟩ := compressTo_next h
  · exact .inl ⟨rfl, rfl⟩
  · exact .inr ⟨hb, rfl⟩

/-- A step of a running ENCPNG is the last one, the close, or leads to a phase with one step less to go,
if it does not end in an error (R113 to R121). -/
theorem execEncpng_closes_or_goesTo {ft : BitVec 3} {s t : State} (hb : s.busy = true)
    (h : execEncpng ft s = .next t) :
    (s.phase = .closing ∧ t = encClose s) ∨
      ∃ p, FailsOrGoesTo p t ∧ s.phase.stepsLeft = p.stepsLeft + 1 := by
  obtain ⟨hp, h⟩ | ⟨hp, rfl⟩ | ⟨hp, rfl⟩ | ⟨hp, rfl⟩ | ⟨hp, -, rgb, -, h⟩ | ⟨hp, h⟩ | ⟨hp, rfl⟩ |
    ⟨hp, rfl⟩ := execEncpng_eq_next h
  · refine .inr ⟨.opening, ?_, congrArg Phase.stepsLeft hp⟩
    obtain h | ⟨-, rfl⟩ := h
    · exact h.failsOrGoesTo
    · exact .inr ⟨hb, rfl⟩
  · exact .inr ⟨.sig, encOpen_failsOrGoesTo hb, congrArg Phase.stepsLeft hp⟩
  · exact .inr ⟨.ihdr, append_failsOrGoesTo _ hb, congrArg Phase.stepsLeft hp⟩
  · have hb' := (ensureTable_busy s).trans hb
    exact .inr ⟨.compress, append_failsOrGoesTo _ hb', congrArg Phase.stepsLeft hp⟩
  · exact .inr ⟨.idat, compressTo_failsOrGoesTo hb h, congrArg Phase.stepsLeft hp⟩
  · refine .inr ⟨.iend, ?_, congrArg Phase.stepsLeft hp⟩
    obtain h | ⟨-, -, z, -, rfl⟩ := h
    · exact h.failsOrGoesTo
    · exact append_failsOrGoesTo _ hb
  · exact .inr ⟨.closing, append_failsOrGoesTo _ hb, congrArg Phase.stepsLeft hp⟩
  · exact .inl ⟨hp, rfl⟩

/-! The whole command. -/

/-- A running ENCPNG with an empty queue, its parameters and latches `c` and `l`, and its source image
`rgb` in memory. -/
structure Encoding (c : Config) (l : Latches) (rgb : Bytes) (s : State) : Prop where
  busy : s.busy = true
  script : s.script = []
  cfg : s.cfg = c
  lat : s.lat = l
  command : decode s.lat.cmd = .ok (.encpng 0)
  table : TableInv s
  sequencer : SequencerInv s
  source : SourceImage s rgb

/-- OUT is the PNG file of the image `rgb`, its payload what Deflate gives for the image (R112). -/
def LeavesFile (c : Config) (l : Latches) (rgb : Bytes) (t : State) : Prop :=
  ∃ z, deflate c.compressor (filtered rgb l.ops.width.toNat l.ops.height.toNat) = some z ∧
    t.out = pngFile builtTable l.ops.width l.ops.height z

/-- An ENCPNG that is over has ended in an error or has left the file. -/
def Encoded (c : Config) (l : Latches) (rgb : Bytes) (t : State) : Prop :=
  t.busy = false ∧ t.script = [] ∧ (t.err = true ∨ LeavesFile c l rgb t)

/-- A command leaves its source where it does not overlap the destination (R45). -/
theorem SourceImage.kept {i : Instr} {s t : State} {rgb : Bytes} (hs : SourceImage s rgb)
    (ho : ImageOperandsOk s) (hl : t.lat = s.lat) (h : exec i s = .next t) : SourceImage t rgb := by
  obtain ⟨-, -, -, -, hover⟩ := ho
  unfold SourceImage at hs ⊢
  rw [hl, ← hs]
  refine Memory.readBytes_congr fun a h1 h2 => exec_read_outside_destination ?_ h
  unfold RegionsOverlap at hover
  omega

/-- At the close OUT is the file of the source image. -/
theorem Encoding.leavesFile {c : Config} {l : Latches} {rgb : Bytes} {s : State}
    (h : Encoding c l rgb s) (hp : s.phase = .closing) : LeavesFile c l rgb s := by
  obtain ⟨hb, -, rfl, rfl, -, -, hseq, hsrc⟩ := h
  obtain ⟨-, hprog⟩ := hseq.ready hb (hp ▸ nofun)
  simp only [EncodingProgress, hp] at hprog
  obtain ⟨-, -, z, ⟨⟨rgb', hsrc', hz⟩, -⟩, hout⟩ := hprog
  obtain rfl : rgb' = rgb := Option.some.inj (hsrc'.symm.trans hsrc)
  exact ⟨z, hz, hout⟩

/-- A running ENCPNG has a step to go: IDLE is no phase of it (R33). -/
theorem Encoding.stepsLeft_pos {c : Config} {l : Latches} {rgb : Bytes} {s : State}
    (h : Encoding c l rgb s) : 0 < s.phase.stepsLeft := by
  cases hp : s.phase with
  | idle =>
    obtain ⟨-, hprog⟩ := h.sequencer.ready h.busy (hp ▸ nofun)
    simp [EncodingProgress, hp] at hprog
  | _ => exact Nat.succ_pos _

theorem takeTurn_of_empty {s : State} (h : s.script = []) : takeTurn s = s := by
  cases s
  cases h
  rfl

/-- The next step of a running ENCPNG is its own. -/
theorem Encoding.step_eq {c : Config} {l : Latches} {rgb : Bytes} {s : State}
    (h : Encoding c l rgb s) : step s = exec (.encpng 0) s := by
  rw [step_of_engine h.busy (by simp [h.script]), takeTurn_of_empty h.script,
    engineStep_of_decode h.command]

/-- A step of a running ENCPNG ends the command, or leaves it running with fewer steps to go. -/
theorem Encoding.ends_or_advances {c : Config} {l : Latches} {rgb : Bytes} {s t : State}
    (h : Encoding c l rgb s) (ht : step s = .next t) :
    Encoded c l rgb t ∨
      (Encoding c l rgb t ∧ s.phase.stepsLeft = t.phase.stepsLeft + 1) := by
  rw [h.step_eq] at ht
  obtain ⟨-, hlat, -, hcfg, hscript, -⟩ := commandsWriteNoOperandRegister _ _ _ ht
  have hscript := hscript.trans h.script
  obtain ⟨hp, rfl⟩ | ⟨p, ⟨hb, he⟩ | ⟨hb, rfl⟩, hsteps⟩ := execEncpng_closes_or_goesTo h.busy ht
  · exact .inl ⟨rfl, hscript, .inr (h.leavesFile hp)⟩
  · exact .inl ⟨hb, hscript, .inl he⟩
  · have hseq : SequencerInv t :=
      execEncpng_keeps_sequencerInv h.busy h.command h.table h.sequencer ht
    have hexec : t.phase ≠ .exec := by
      intro hp
      have hle := s.phase.stepsLeft_le
      rw [hsteps, hp] at hle
      exact absurd hle (by decide)
    obtain ⟨⟨-, ho⟩, -⟩ := hseq.ready hb hexec
    have ho : ImageOperandsOk s := by simpa only [ImageOperandsOk, hlat, hcfg] using ho
    exact .inr ⟨⟨hb, hscript, hcfg.trans h.cfg, hlat.trans h.lat, hlat.symm ▸ h.command,
      exec_keeps_tableInv h.table ht, hseq, h.source.kept ho hlat ht⟩, hsteps⟩

/-- The first of several steps, and then the others. -/
theorem runSteps_succ_eq_next {n : Nat} {s t : State} :
    runSteps (n + 1) s = .next t ↔ ∃ u, step s = .next u ∧ runSteps n u = .next t := by
  have hstep : core.step s = step s := rfl
  simp only [runSteps, Host.Core.run, hstep]
  cases step s <;> simp

/-- With nobody to move nothing changes any more (R150). -/
theorem runSteps_of_idle {s : State} (hb : s.busy = false) (hs : s.script = []) (n : Nat) :
    runSteps n s = .next s := by
  induction n with
  | zero => rfl
  | succ n ih =>
    have hstep : step s = .next (takeTurn s) := by simp [step, nextMover, hb, hs]
    rw [takeTurn_of_empty hs] at hstep
    exact runSteps_succ_eq_next.2 ⟨s, hstep, ih⟩

/-- As many steps as an ENCPNG has to go, or more, end it. -/
theorem Encoding.encoded_of_runSteps {c : Config} {l : Latches} {rgb : Bytes} {n : Nat}
    {s t : State} (h : Encoding c l rgb s) (hn : s.phase.stepsLeft ≤ n)
    (ht : runSteps n s = .next t) : Encoded c l rgb t := by
  induction n generalizing s with
  | zero => exact absurd hn (Nat.not_le.2 h.stepsLeft_pos)
  | succ n ih =>
    obtain ⟨u, hu, ht⟩ := runSteps_succ_eq_next.1 ht
    obtain hend | ⟨hu, hsteps⟩ := h.ends_or_advances hu
    · obtain ⟨hb, hscript, -⟩ := id hend
      rw [runSteps_of_idle hb hscript] at ht
      cases ht
      exact hend
    · exact ih hu (by omega) ht

end Sys2Proof.Machine

/-! The statements about the filter and the compressor, and equal files of equal images, settled. -/

namespace Sys2Proof.Machine

/-- Settles O29, row by row. -/
theorem filteredScanlineBytes : Obligations.FilteredScanlineBytes :=
  fun _ _ _ hl => ⟨filtered_length hl, fun _ => filtered_getElem? hl⟩

/-- Settles O30: the checks pass, the source is read, and the F filtered bytes are stored. -/
theorem filtWritesTheFilteredScanlines : Obligations.FiltWritesTheFilteredScanlines := by
  intro s rgb ho hf hs x f
  have hx : x.length = f := hs.filtered_length
  exact ⟨_, execFilt_eq_next.2 (.inr ⟨⟨rfl, ho, hf⟩, rgb, hs, rfl⟩),
    hx ▸ Memory.stores_writeBytes s.mem s.lat.ops.dstAddr.toNat x⟩

/-- Settles O32: FCOMP is Compress of the filtered image, which stores what Deflate gives. -/
theorem fcompWritesTheCompressedImage : Obligations.FcompWritesTheCompressedImage :=
  fun s _ z ho hs hz hf =>
    ⟨_, Compresses.fcomp.exec_eq ho hs (compressTo_of_fits ho hz hf),
      Memory.stores_writeBytes s.mem s.lat.ops.dstAddr.toNat z⟩

/-- Settles O33: either step is Compress of the filtered image, which scrambles the destination. -/
theorem compressionErrorScramblesTheDestination :
    Obligations.CompressionErrorScramblesTheDestination := by
  intro s rgb i ho hs hi o r hz
  obtain ⟨k, hk⟩ : ∃ k, Compresses s i k := by
    obtain rfl | ⟨rfl, hp⟩ := hi
    · exact ⟨_, .fcomp⟩
    · exact ⟨_, .encpng hp⟩
  have hl := scrambled_length s o.dstCap.toNat
  refine ⟨_, hk.exec_eq ho hs (compressTo_of_not_fits ho hz), fun a h1 h2 => ?inside,
    fun a ha => ?outside⟩
  case inside => exact Memory.isSome_read_writeBytes h1 (hl.symm ▸ h2)
  case outside => exact Memory.read_writeBytes_outside (hl.symm ▸ ha)

/-- Settles O34: the hardware's compressor is cut to zlib streams of its input, and the reference
compressor's stored blocks decompress to it. -/
theorem deflateGivesAZlibStreamOfItsInput : Obligations.DeflateGivesAZlibStreamOfItsInput := by
  intro c x z h
  cases c with
  | parameter => exact (Option.filter_eq_some_iff.1 h).2
  | reference =>
    cases h
    exact deflateRef_isZlibStreamOf x

/-- Settles O35: two header bytes, the stored blocks, and four bytes of Adler-32. -/
theorem referenceCompressorLength : Obligations.ReferenceCompressorLength := by
  refine fun x => ⟨_, rfl, ?_⟩
  rw [deflateRef, List.length_append, List.length_append, be32_length,
    storedBlocks_length (Nat.lt_add_one _)]
  simp only [List.length_cons, List.length_nil]
  omega

/-- Settles O38: the COMPRESS phase is Compress of the filtered image, and then stores the length. -/
theorem encpngCompressesIntoTheDestination : Obligations.EncpngCompressesIntoTheDestination :=
  fun s _ z hp ho hs hz hf =>
    ⟨_, (Compresses.encpng hp).exec_eq ho hs (compressTo_of_fits ho hz hf),
      Memory.stores_writeBytes s.mem s.lat.ops.dstAddr.toNat z⟩

/-- Settles O43: either machine leaves the file of its image, which dimensions, RGB bytes and Deflate
determine. -/
theorem encpngIsIdempotent : Obligations.EncpngIsIdempotent := by
  intro s₁ s₂ t₁ t₂ rgb hs hw hh hc h₁ h₂ he₁ he₂
  have file {s t : State} (hmem : s ∈ [s₁, s₂]) (h : runSteps 8 s = .next t) (he : t.err = false) :
      LeavesFile s.cfg s.lat rgb t := by
    obtain ⟨hb, -, hp, hscript, hcmd, htbl, hsrc⟩ := hs s hmem
    have hencoding : Encoding s.cfg s.lat rgb s :=
      ⟨hb, hscript, rfl, rfl, hcmd, htbl, .of_exec hp, hsrc⟩
    obtain ⟨-, -, hend⟩ := hencoding.encoded_of_runSteps (hp ▸ Nat.le_refl 8) h
    exact hend.resolve_left (by simp [he])
  obtain ⟨z₁, hz₁, hout₁⟩ := file (by simp) h₁ he₁
  obtain ⟨z₂, hz₂, hout₂⟩ := file (by simp) h₂ he₂
  rw [hc, hw, hh, hz₂] at hz₁
  rw [hout₁, hout₂, hw, hh, Option.some.inj hz₁]

end Sys2Proof.Machine

/-! SUPPORT. ENCPNG phase by phase as whole next states, the ends of a step that fails, and the sizes of
the file and of its chunks (R111 to R121). -/

namespace Sys2Proof.Machine

/-! The table beside the other fields. -/

/-- `s` with another table. -/
def withTable (tbl : Vector Word 256) (valid : Bool) (s : State) : State :=
  { s with tbl := tbl, tblValid := valid }

theorem withTable_self (s : State) : withTable s.tbl s.tblValid s = s := rfl

/-- The sink's answer is taken whatever the table is. -/
theorem takeWrite_withTable (tbl : Vector Word 256) (valid : Bool) (s : State) :
    takeWrite (withTable tbl valid s) = withTable tbl valid (takeWrite s) := by
  unfold takeWrite withTable
  cases s.writes <;> rfl

/-! The step of each phase. The COMPRESS phase is `Compresses.encpng`. -/

/-- The EXEC step with its checks passed (R113). -/
theorem execEncpng_of_exec {s : State} (hp : s.phase = .exec) (ho : ImageOperandsOk s)
    (hc : s.strmOpen = false) : exec (.encpng 0) s = .next (toPhase .opening s) := by
  rw [exec, execEncpng, hp]
  exact encExec_eq_next.2 (.inr ⟨⟨rfl, ho, hc⟩, rfl⟩)

theorem execEncpng_of_opening {ft : BitVec 3} {s : State} (hp : s.phase = .opening) :
    exec (.encpng ft) s = .next ((streamOpen s).andThen (toPhase .sig)) := by
  rw [exec, execEncpng, hp, encOpen]

theorem execEncpng_of_sig {ft : BitVec 3} {s : State} (hp : s.phase = .sig) :
    exec (.encpng ft) s = .next ((append signature s).andThen (toPhase .ihdr)) := by
  rw [exec, execEncpng, hp, encSig]

/-- The IHDR phase, where a valid table is the built one (R116). -/
theorem execEncpng_of_ihdr {ft : BitVec 3} {s : State} (hp : s.phase = .ihdr) (ht : TableInv s) :
    exec (.encpng ft) s = .next ((append
      (chunkBytes builtTable tagIhdr (ihdrPayload s.lat.ops.width s.lat.ops.height))
      (withTable builtTable true s)).andThen (toPhase .compress)) := by
  rw [exec, execEncpng, hp, withTable, ← ensureTable_eq_of_tableInv ht, ← ensureTable_tbl ht]
  rfl

/-- The IDAT phase with a payload that is short enough, in range and written (R118). -/
theorem execEncpng_of_idat {ft : BitVec 3} {s : State} {z : Bytes} (hp : s.phase = .idat)
    (hl : s.zlen.toNat ≤ 0x7FFFFFFF)
    (hr : RegionInRange s.cfg.memSize s.lat.ops.dstAddr s.zlen.toNat)
    (hz : s.mem.readBytes s.lat.ops.dstAddr.toNat s.zlen.toNat = some z) :
    exec (.encpng ft) s =
      .next ((append (chunkBytes s.tbl tagIdat z) s).andThen (toPhase .iend)) := by
  rw [exec, execEncpng, hp]
  exact encIdat_eq_next.2 (.inr ⟨hl, hr, z, hz, rfl⟩)

/-- The IDAT phase with a payload no chunk holds (R92, R118). -/
theorem execEncpng_of_idat_too_long {ft : BitVec 3} {s : State} (hp : s.phase = .idat)
    (hl : 0x7FFFFFFF < s.zlen.toNat) :
    exec (.encpng ft) s = .next (raise .length s.zlen s) := by
  rw [exec, execEncpng, hp]
  have hfail := (lengthGuard_fails _).2 hl
  exact encIdat_eq_next.2 (.inl ⟨_, firstFailing_cons_of_fails hfail, rfl⟩)

theorem execEncpng_of_iend {ft : BitVec 3} {s : State} (hp : s.phase = .iend) :
    exec (.encpng ft) s =
      .next ((append (chunkBytes s.tbl tagIend []) s).andThen (toPhase .closing)) := by
  rw [exec, execEncpng, hp, encIend]

theorem execEncpng_of_closing {ft : BitVec 3} {s : State} (hp : s.phase = .closing) :
    exec (.encpng ft) s = .next (completeWith s.outCount (streamClose s)) := by
  rw [exec, execEncpng, hp]
  rfl

/-! The file and its chunks. -/

/-- The CRC of "IEND", computed without the table (R83). -/
theorem crc32_tagIend : crc32 builtTable 0 tagIend = 0xAE426082 :=
  (checksumNeedsNoStoredTable 0 tagIend).trans (by decide +kernel)

/-- The empty IEND chunk (R112, R119). -/
theorem chunkBytes_tagIend : chunkBytes builtTable tagIend [] =
    [0x00, 0x00, 0x00, 0x00, 0x49, 0x45, 0x4E, 0x44, 0xAE, 0x42, 0x60, 0x82] := by
  rw [chunkBytes, chunkCrc, List.append_nil, List.append_nil, crc32_tagIend]
  rfl

/-- The file is 57 bytes longer than its payload (R112, R120). -/
theorem pngFile_length (tbl : Vector Word 256) (w h : Word) (z : Bytes) :
    (pngFile tbl w h z).length = 57 + z.length := by
  have hihdr : (ihdrPayload w h).length = 13 := rfl
  simp only [pngFile, List.length_append, chunkBytes_length, hihdr, signature, tagIhdr, tagIdat,
    tagIend, List.length_cons, List.length_nil]
  omega

/-! A step that ends in an error. -/

/-- The command is over at the phase it was at, the stream is neither opened nor closed, RESULT is not
written, and only an open takes bytes from OUT (R121). -/
structure StoppedAt (s t : State) : Prop where
  busy : t.busy = false
  done : t.done = true
  phase : t.phase = s.phase
  strmOpen : t.strmOpen = s.strmOpen
  result : t.result = s.result
  out : s.phase ≠ .opening → s.out <+: t.out

theorem Rejected.stoppedAt {gs : List Guard} {s t : State} (h : Rejected gs s t) :
    StoppedAt s t := by
  obtain ⟨g, -, rfl⟩ := h
  exact ⟨rfl, rfl, rfl, rfl, rfl, fun _ => by simp⟩

/-- An open that goes on raises no error. -/
theorem streamOpen_stoppedAt {p : Phase} {s : State} (hp : s.phase = .opening) (he : s.err = false)
    (ht : ((streamOpen s).andThen (toPhase p)).err = true) :
    StoppedAt s ((streamOpen s).andThen (toPhase p)) := by
  obtain ⟨-, h⟩ | ⟨truncated, -, h⟩ := streamOpen_cases s <;> rw [h] at ht ⊢
  · simp [he] at ht
  · exact ⟨rfl, rfl, by simp, by simp, by simp, fun hne => absurd hp hne⟩

/-- An append that goes on raises no error, and one that fails lands its bytes at the end of OUT. -/
theorem append_stoppedAt {p : Phase} {bs : Bytes} {s : State} (he : s.err = false)
    (ht : ((append bs s).andThen (toPhase p)).err = true) :
    StoppedAt s ((append bs s).andThen (toPhase p)) := by
  obtain ⟨-, h⟩ | ⟨k, -, h⟩ := append_cases bs s <;> rw [h] at ht ⊢
  · simp [he] at ht
  · exact ⟨rfl, rfl, by simp, by simp, by simp, fun _ => by simp⟩

theorem compressTo_stoppedAt {x : Bytes} {s t : State} (he : s.err = false)
    (h : compressTo x storeLength s = .ok t) (ht : t.err = true) : StoppedAt s t := by
  obtain ⟨-, info, rfl⟩ | ⟨z, -, -, -, rfl⟩ := compressTo_next h
  · exact ⟨rfl, rfl, rfl, rfl, rfl, fun _ => by simp⟩
  · exact absurd (he.symm.trans ht) nofun

/-- A build of the table before the step changes nothing of this. -/
theorem StoppedAt.of_ensureTable {s t : State} (h : StoppedAt (ensureTable s) t) :
    StoppedAt s t := by
  obtain ⟨hb, hd, hp, ho, hr, hout⟩ := h
  exact ⟨hb, hd, by simpa using hp, by simpa using ho, by simpa using hr, by simpa using hout⟩

/-- Every phase: it goes on without an error, or stops where it is (R113 to R121). -/
theorem execEncpng_stoppedAt {ft : BitVec 3} {s t : State} (he : s.err = false)
    (h : execEncpng ft s = .next t) (ht : t.err = true) : StoppedAt s t := by
  have goesOn (hs : t.err = s.err) : StoppedAt s t := absurd (hs.symm.trans ht) (by simp [he])
  obtain ⟨-, h | ⟨-, rfl⟩⟩ | ⟨hp, rfl⟩ | ⟨-, rfl⟩ | ⟨-, rfl⟩ | ⟨-, -, rgb, -, h⟩ |
    ⟨-, h | ⟨-, -, z, -, rfl⟩⟩ | ⟨-, rfl⟩ | ⟨-, rfl⟩ := execEncpng_eq_next h
  · exact h.stoppedAt
  · exact goesOn rfl
  · exact streamOpen_stoppedAt hp he ht
  · exact append_stoppedAt he ht
  · exact (append_stoppedAt ((ensureTable_err s).trans he) ht).of_ensureTable
  · exact compressTo_stoppedAt he h ht
  · exact h.stoppedAt
  · exact append_stoppedAt he ht
  · exact append_stoppedAt he ht
  · exact goesOn rfl

end Sys2Proof.Machine

/-! SUPPORT. A whole ENCPNG whose sink succeeds, one step after the other (R113 to R120). -/

namespace Sys2Proof.Machine

/-- `s` at the phase `p` with the stream open: `bs` is in OUT and counted, and `ws` are the sink's answers
to come. -/
def streaming (s : State) (p : Phase) (bs : Bytes) (ws : List WriteOutcome) : State :=
  { s with
    phase := p
    strmOpen := true
    out := bs
    outCount := BitVec.ofNat 32 bs.length
    writes := ws }

/-- An append that the sink takes, and the next phase. -/
theorem append_streaming (s : State) (p q : Phase) (bs bytes : Bytes) (ws : List WriteOutcome) :
    (append bytes (streaming s p bs (.success :: ws))).andThen (toPhase q) =
      streaming s q (bs ++ bytes) ws := by
  rw [append_of_success _ rfl, streaming, streaming, List.length_append, BitVec.ofNat_add]
  rfl

/-! Each phase, as long as the sink succeeds. -/

theorem exec_opening_streaming {s : State} {os : List OpenOutcome} (hp : s.phase = .opening)
    (ho : s.opens = .success :: os) :
    exec (.encpng 0) s = .next (streaming { s with opens := os } .sig [] s.writes) := by
  have ha : openAnswer s = .success := by rw [openAnswer, ho]
  rw [execEncpng_of_opening hp, streamOpen_of_success ha, takeOpen, ho]
  rfl

theorem exec_sig_streaming (s : State) (ws : List WriteOutcome) :
    exec (.encpng 0) (streaming s .sig [] (.success :: ws)) =
      .next (streaming s .ihdr signature ws) := by
  rw [execEncpng_of_sig rfl, append_streaming, List.nil_append]

theorem exec_ihdr_streaming {s : State} (ht : TableInv s) (bs : Bytes) (ws : List WriteOutcome) :
    exec (.encpng 0) (streaming s .ihdr bs (.success :: ws)) =
      .next (streaming (withTable builtTable true s) .compress
        (bs ++ chunkBytes builtTable tagIhdr (ihdrPayload s.lat.ops.width s.lat.ops.height)) ws) := by
  rw [execEncpng_of_ihdr (s := streaming s .ihdr bs (.success :: ws)) rfl ht,
    ← append_streaming _ .ihdr]
  rfl

theorem exec_compress_streaming {s : State} {rgb z : Bytes} (ho : ImageOperandsOk s)
    (hs : SourceImage s rgb)
    (hz : deflate s.cfg.compressor (filtered rgb s.lat.ops.width.toNat s.lat.ops.height.toNat) =
      some z)
    (hf : z.length ≤ s.lat.ops.dstCap.toNat) (bs : Bytes) (ws : List WriteOutcome) :
    exec (.encpng 0) (streaming s .compress bs ws) =
      .next (streaming (storeLength z.length (storeAtDest z s)) .idat bs ws) :=
  (Compresses.encpng rfl).exec_eq (s := streaming s .compress bs ws) ho hs
    (compressTo_of_fits (s := streaming s .compress bs ws) ho hz hf)

theorem exec_idat_streaming {s : State} {z : Bytes} (hl : z.length ≤ 0x7FFFFFFF)
    (hr : RegionInRange s.cfg.memSize s.lat.ops.dstAddr z.length)
    (hz : s.mem.readBytes s.lat.ops.dstAddr.toNat z.length = some z)
    (hn : s.zlen = BitVec.ofNat 32 z.length) (bs : Bytes) (ws : List WriteOutcome) :
    exec (.encpng 0) (streaming s .idat bs (.success :: ws)) =
      .next (streaming s .iend (bs ++ chunkBytes s.tbl tagIdat z) ws) := by
  have hn : s.zlen.toNat = z.length := by
    rw [hn, BitVec.toNat_ofNat, Nat.mod_eq_of_lt (by omega)]
  rw [← hn] at hl hr hz
  rw [execEncpng_of_idat (s := streaming s .idat bs (.success :: ws)) rfl hl hr hz, append_streaming]
  rfl

theorem exec_iend_streaming (s : State) (bs : Bytes) (ws : List WriteOutcome) :
    exec (.encpng 0) (streaming s .iend bs (.success :: ws)) =
      .next (streaming s .closing (bs ++ chunkBytes s.tbl tagIend []) ws) := by
  rw [execEncpng_of_iend rfl, append_streaming]
  rfl

/-! The phases in turn. -/

/-- An ENCPNG that runs with nobody else to move. -/
structure RunsAlone (s : State) : Prop where
  busy : s.busy = true
  script : s.script = []
  command : decode s.lat.cmd = .ok (.encpng 0)

/-- Its next step, and then the others. -/
theorem RunsAlone.runSteps_succ {n : Nat} {s t u : State} (hs : RunsAlone s)
    (hu : exec (.encpng 0) s = .next u) (ht : runSteps n u = .next t) :
    runSteps (n + 1) s = .next t := by
  obtain ⟨hb, hscript, hd⟩ := hs
  have hstep : step s = exec (.encpng 0) s := by
    rw [step_of_engine hb (by simp [hscript]), takeTurn_of_empty hscript, engineStep_of_decode hd]
  exact runSteps_succ_eq_next.2 ⟨u, hstep.trans hu, ht⟩

/-- The phases from COMPRESS on, for any table: the payload is stored, its chunk and the last chunk are
appended, and the command completes (R117 to R120). -/
theorem RunsAlone.runSteps_compress {s : State} {rgb z : Bytes} (h : RunsAlone s)
    (ho : ImageOperandsOk s) (hs : SourceImage s rgb)
    (hz : deflate s.cfg.compressor (filtered rgb s.lat.ops.width.toNat s.lat.ops.height.toNat) =
      some z)
    (hf : z.length ≤ s.lat.ops.dstCap.toNat) (hl : z.length ≤ 0x7FFFFFFF)
    (tbl : Vector Word 256) (bs : Bytes) (ws : List WriteOutcome) :
    let file := bs ++ chunkBytes tbl tagIdat z ++ chunkBytes tbl tagIend []
    runSteps 4 (streaming (withTable tbl true s) .compress bs (.success :: .success :: ws)) =
      .next { s with
        writes := ws, busy := false, done := true, phase := .idle, strmOpen := false
        tbl := tbl, tblValid := true
        mem := s.mem.writeBytes s.lat.ops.dstAddr.toNat z, zlen := BitVec.ofNat 32 z.length
        out := file
        outCount := BitVec.ofNat 32 file.length
        result := BitVec.ofNat 32 file.length } := by
  obtain ⟨hb, hscript, hd⟩ := h
  obtain ⟨-, -, -, hdst, -⟩ := id ho
  refine RunsAlone.runSteps_succ ⟨hb, hscript, hd⟩
    (exec_compress_streaming (s := withTable tbl true s) ho hs hz hf ..) ?_
  refine RunsAlone.runSteps_succ ⟨hb, hscript, hd⟩ (exec_idat_streaming
    (s := storeLength z.length (storeAtDest z (withTable tbl true s))) hl (hdst.mono hf)
    (Memory.readBytes_writeBytes ..) rfl ..) ?_
  refine RunsAlone.runSteps_succ ⟨hb, hscript, hd⟩ (exec_iend_streaming ..) ?_
  exact RunsAlone.runSteps_succ ⟨hb, hscript, hd⟩ (execEncpng_of_closing rfl) rfl

end Sys2Proof.Machine

/-! The statements about the PNG encoder, settled. -/

namespace Sys2Proof.Machine

/-- Settles O36: the checks pass, and at OPEN the sink's answer decides the rest. -/
theorem encpngStartsAndOpensTheStream : Obligations.EncpngStartsAndOpensTheStream := by
  refine ⟨fun s hp ho hc => execEncpng_of_exec hp ho hc,
    fun s hp => ⟨fun ha => ?opened, fun truncated ha => ?refused⟩⟩
  case opened =>
    rw [execEncpng_of_opening hp, streamOpen_of_success ha]
    rfl
  case refused =>
    rw [execEncpng_of_opening hp, streamOpen_of_failure ha, ← takeOpen_out s]
    rfl

/-- Settles O37: each of the phases is one append, IHDR's after the build of the table. -/
theorem encpngAppendsSignatureIhdrAndIend : Obligations.EncpngAppendsSignatureIhdrAndIend := by
  intro s bytes next ht h valid table
  have hstep : exec (.encpng 0) s =
      .next ((append bytes (withTable table valid s)).andThen (toPhase next)) := by
    obtain ⟨hp, rfl, rfl⟩ | ⟨hp, rfl, rfl⟩ | ⟨hp, hv, rfl, rfl⟩ := h
    · simp [valid, table, hp, execEncpng_of_sig hp, withTable_self]
    · simp [valid, table, hp, execEncpng_of_ihdr hp ht]
    · rw [execEncpng_of_iend hp, ht hv, chunkBytes_tagIend]
      simp [valid, table, hp, withTable_self]
  refine ⟨fun ha => ?whole, fun k ha => ?part⟩
  case whole =>
    have ha : writeAnswer (withTable table valid s) = .success := ha
    rw [hstep, append_of_success _ ha, takeWrite_withTable]
    rfl
  case part =>
    have ha : writeAnswer (withTable table valid s) = .failure k := ha
    rw [hstep, append_of_failure _ ha, takeWrite_withTable]
    rfl

/-- Settles O39: the payload is too long, or the phase is one append of its chunk, 12 bytes longer. -/
theorem encpngAppendsIdat : Obligations.EncpngAppendsIdat := by
  refine fun s hp => ⟨execEncpng_of_idat_too_long hp, fun z hl hr hz => ?_⟩
  have hlen : z.length = s.zlen.toNat := (Memory.readBytes_eq_some.1 hz).1
  have hchunk := chunkBytes_of_length hlen s.tbl tagIdat
  have hcount : (chunkBytes s.tbl tagIdat z).length = 12 + s.zlen.toNat := by
    have htag : tagIdat.length = 4 := rfl
    rw [chunkBytes_length, hlen, htag]
    omega
  intro chunk
  refine ⟨fun ha => ?whole, fun k ha => ?part⟩
  case whole =>
    rw [execEncpng_of_idat hp hl hr hz, append_of_success _ ha, hcount, hchunk]
    rfl
  case part =>
    rw [execEncpng_of_idat hp hl hr hz, append_of_failure _ ha, hcount, hchunk]
    rfl

/-- Settles O40: at the close OUT is the file, and OUT_COUNT counts it. -/
theorem encpngClosesAndCompletes : Obligations.EncpngClosesAndCompletes := by
  refine fun s hp => ⟨execEncpng_of_closing hp, fun hb hinv => ?_⟩
  obtain ⟨-, -, -, hcount, hseq⟩ := hinv
  obtain ⟨-, hprog⟩ := hseq.ready hb (hp ▸ nofun)
  simp only [EncodingProgress, hp] at hprog
  obtain ⟨ho, -, z, ⟨-, -, -, hzlen⟩, hout⟩ := hprog
  rw [hcount ho, hout, pngFile_length, hzlen, BitVec.ofNat_add]
  rfl

/-- Settles O41, by phase. -/
theorem encpngErrorKeepsPhaseAndStream : Obligations.EncpngErrorKeepsPhaseAndStream := by
  intro s t ft he h ht
  obtain ⟨hb, hd, hp, ho, hr, hout⟩ := execEncpng_stoppedAt he h ht
  exact ⟨hb, hd, hp, ho, hr, hout⟩

/-- Settles O42: the eight phases in turn. -/
theorem encpngWritesThePngFile : Obligations.EncpngWritesThePngFile := by
  intro s rgb z os ws hb hp hscript hd ht hc ho hs hz hf hl hos hws
  have hopening := exec_opening_streaming (s := toPhase .opening s) rfl hos
  rw [toPhase_writes, hws] at hopening
  refine RunsAlone.runSteps_succ ⟨hb, hscript, hd⟩ (execEncpng_of_exec hp ho hc) ?_
  refine RunsAlone.runSteps_succ ⟨hb, hscript, hd⟩ hopening ?_
  refine RunsAlone.runSteps_succ ⟨hb, hscript, hd⟩ (exec_sig_streaming ..) ?_
  refine RunsAlone.runSteps_succ ⟨hb, hscript, hd⟩
    (exec_ihdr_streaming (s := { toPhase .opening s with opens := os }) ht ..) ?_
  rw [RunsAlone.runSteps_compress (s := { toPhase .opening s with opens := os }) ⟨hb, hscript, hd⟩
      ho hs hz hf hl,
    ← pngFile_length builtTable s.lat.ops.width s.lat.ops.height z, ← hc]
  rfl

end Sys2Proof.Machine

/-! SUPPORT. The first failing check of RGB (R126, R132). -/

namespace Sys2Proof.Machine

/-- The first check of RGB that fails, `g` after the passing `gs`, is raised with no other effect
(R126, R132). -/
theorem exec_rgb_of_failing {s : State} {g : Guard} {gs hs : List Guard}
    (hl : rgbGuards s = gs ++ g :: hs) (hgs : firstFailing gs = none) (hg : g.fails = true) :
    exec .rgb s = .next (raise g.error g.info s) :=
  execRgb_eq_next.2 (.inl ⟨g, hl ▸ firstFailing_append_cons hgs hg, rfl⟩)

end Sys2Proof.Machine

/-! The statements about the pixel converter, settled. -/

namespace Sys2Proof.Machine

/-- Settles O44: the checks pass, the source is read, and the three bytes of each pixel are stored. -/
theorem rgbWritesTheConvertedPixels : Obligations.RgbWritesTheConvertedPixels := by
  intro s words ho hr n
  have hx : (toRgb s.cfg.pixelByteOrder words).length = 3 * n :=
    toRgb_length _ (Memory.readBytes_eq_some.1 hr).1
  exact ⟨_, execRgb_eq_next.2 (.inr ⟨ho, words, hr, rfl⟩),
    hx ▸ Memory.stores_writeBytes s.mem s.lat.ops.dstAddr.toNat _⟩

/-- Settles O46: each clause names the first check that fails, after the ones that pass; either MEMORY
clause covers two checks, of which the first to fail raises it. -/
theorem rgbErrorsInOrder : Obligations.RgbErrorsInOrder := by
  intro s o n aligned
  refine ⟨fun hd => ?dim, fun hd ha => ?align, fun hd (ha : o.srcAddr.toNat % 4 = 0) h => ?source,
    fun hd (ha : o.srcAddr.toNat % 4 = 0) hl hs h => ?dest,
    fun hd (ha : o.srcAddr.toNat % 4 = 0) hl hs ht hc hover => ?overlap⟩
  case dim => exact exec_rgb_of_failing (gs := []) rfl rfl ((pixelDimGuard_fails o).2 hd)
  case align =>
    refine exec_rgb_of_failing (gs := [pixelDimGuard o]) rfl ?_ ((alignGuard_fails o).2 ha)
    simp [firstFailing_cons_eq_none, firstFailing_nil, hd]
  case source =>
    by_cases hl : o.srcLen.toNat < 4 * n
    · refine exec_rgb_of_failing (gs := [pixelDimGuard o, alignGuard o]) rfl ?_
        ((sourceSizeGuard_fails o (4 * n)).2 hl)
      simp [firstFailing_cons_eq_none, firstFailing_nil, hd, ha]
    · have hs := h.resolve_left hl
      refine exec_rgb_of_failing (gs := [pixelDimGuard o, alignGuard o, sourceSizeGuard o (4 * n)])
        rfl ?_ ((rangeGuard_fails s o.srcAddr (4 * n)).2 hs)
      simp [firstFailing_cons_eq_none, firstFailing_nil, hd, ha, Nat.not_lt.1 hl]
  case dest =>
    by_cases ht : RegionInRange s.cfg.memSize o.dstAddr o.dstCap.toNat
    · have hc := h.resolve_left (not_not.2 ht)
      refine exec_rgb_of_failing (gs := [pixelDimGuard o, alignGuard o, sourceSizeGuard o (4 * n),
        rangeGuard s o.srcAddr (4 * n), rangeGuard s o.dstAddr o.dstCap.toNat]) rfl ?_
        ((capacityGuard_fails o (3 * n)).2 hc)
      simp [firstFailing_cons_eq_none, firstFailing_nil, hd, ha, hl, hs, ht]
    · refine exec_rgb_of_failing (gs := [pixelDimGuard o, alignGuard o, sourceSizeGuard o (4 * n),
        rangeGuard s o.srcAddr (4 * n)]) rfl ?_ ((rangeGuard_fails s o.dstAddr o.dstCap.toNat).2 ht)
      simp [firstFailing_cons_eq_none, firstFailing_nil, hd, ha, hl, hs]
  case overlap =>
    refine exec_rgb_of_failing (gs := [pixelDimGuard o, alignGuard o, sourceSizeGuard o (4 * n),
      rangeGuard s o.srcAddr (4 * n), rangeGuard s o.dstAddr o.dstCap.toNat,
      capacityGuard o (3 * n)]) rfl ?_ ((overlapGuard_fails o (4 * n)).2 hover)
    simp [firstFailing_cons_eq_none, firstFailing_nil, hd, ha, hl, hs, ht, hc]

end Sys2Proof.Machine

/-! SUPPORT. What the Engine answers if not a next state: UNINIT_READ and nothing else, since the
pre-checks keep its accesses inside buffer memory (R43, R44), and with it the bound of R145. -/

namespace Sys2Proof.Machine

/-! Steps that can only stop at an unwritten byte. -/

/-- The step answers a next state, or its read met an unwritten byte (R43, R146). -/
def NextOrUninitRead (o : Host.Outcome State Fault Refusal) : Prop :=
  o = .fault .uninitRead ∨ ∃ t, o = .next t

theorem guarded_nextOrUninitRead {gs : List Guard} {s : State} {body : Except Fault State}
    (h : firstFailing gs = none → NextOrUninitRead (answer body)) :
    NextOrUninitRead (guarded gs s body) := by
  cases hg : firstFailing gs with
  | some g => exact .inr ⟨_, guarded_of_fail hg⟩
  | none => exact guarded_of_pass (s := s) hg ▸ h hg

/-- A read in range, and then a body that goes through for the bytes read. -/
theorem answer_read_nextOrUninitRead {a : Word} {n : Nat} {s : State}
    {k : Bytes → Except Fault State} (hr : RegionInRange s.cfg.memSize a n)
    (hk : ∀ bs, s.mem.readBytes a.toNat n = some bs → ∃ t, k bs = .ok t) :
    NextOrUninitRead (answer (memRead a n s >>= k)) := by
  rw [memRead, if_pos ((inRange_iff ..).2 hr)]
  cases hb : s.mem.readBytes a.toNat n with
  | none => exact .inl rfl
  | some bs =>
    obtain ⟨t, ht⟩ := hk bs hb
    exact .inr ⟨t, answer_eq_next.2 ht⟩

/-- A store in range goes through, whatever the rest of the step does with it. -/
theorem memWrite_bind_pure_ok {a : Word} {bs : Bytes} {s : State} (k : State → State)
    (hr : RegionInRange s.cfg.memSize a bs.length) :
    ∃ t, (memWrite a bs s >>= fun u => pure (k u)) = .ok t :=
  ⟨_, bind_pure_eq_ok.2 ⟨_, memWrite_eq_ok.2 ⟨hr, rfl⟩, rfl⟩⟩

/-- The compression of an image whose operands pass the checks stops at an unwritten source byte only
(R106, R109, R117). -/
theorem compress_nextOrUninitRead {k : Nat → State → State} {s : State} (ho : ImageOperandsOk s) :
    NextOrUninitRead (answer (filteredSource s >>= fun x => compressTo x k s)) := by
  obtain ⟨-, -, hsrc, hdst, -⟩ := ho
  rw [filteredSource, bind_assoc]
  refine answer_read_nextOrUninitRead hsrc fun rgb _ => ?_
  obtain ⟨info, h⟩ | ⟨z, -, -, h⟩ := compressTo_cases
    (x := filtered rgb s.lat.ops.width.toNat s.lat.ops.height.toNat) (k := k) hdst
  · exact ⟨_, h⟩
  · exact ⟨_, h⟩

/-! The commands that read. -/

theorem execCrc_nextOrUninitRead (s : State) : NextOrUninitRead (execCrc s) := by
  refine guarded_nextOrUninitRead fun h => ?_
  have hr : RegionInRange s.cfg.memSize s.lat.ops.srcAddr s.lat.ops.srcLen.toNat := by
    simpa [firstFailing_cons_eq_none, firstFailing_nil] using h
  exact answer_read_nextOrUninitRead (by simpa using hr) fun _ _ => ⟨_, rfl⟩

theorem execWchunk_nextOrUninitRead (s : State) : NextOrUninitRead (execWchunk s) := by
  refine guarded_nextOrUninitRead fun h => ?_
  obtain ⟨-, hr, -⟩ := wchunkGuards_pass.1 h
  exact answer_read_nextOrUninitRead (by simpa using hr) fun _ _ => ⟨_, rfl⟩

theorem execFilt_nextOrUninitRead (ft : BitVec 3) (s : State) :
    NextOrUninitRead (execFilt ft s) := by
  refine guarded_nextOrUninitRead fun h => ?_
  obtain ⟨-, ⟨-, -, hsrc, hdst, -⟩, hc⟩ := filtGuards_pass.1 h
  refine answer_read_nextOrUninitRead hsrc fun rgb hrgb => memWrite_bind_pure_ok _ (hdst.mono ?_)
  exact (filtered_length (Memory.readBytes_eq_some.1 hrgb).1).trans_le hc

theorem execFcomp_nextOrUninitRead (ft : BitVec 3) (s : State) :
    NextOrUninitRead (execFcomp ft s) := by
  refine guarded_nextOrUninitRead fun h => ?_
  obtain ⟨-, ho⟩ := fcompGuards_pass.1 h
  exact compress_nextOrUninitRead ho

theorem execRgb_nextOrUninitRead (s : State) : NextOrUninitRead (execRgb s) := by
  refine guarded_nextOrUninitRead fun h => ?_
  obtain ⟨-, -, ⟨-, hsrc, hdst, -⟩, hc⟩ := rgbGuards_pass.1 h
  rw [Nat.mul_assoc] at hsrc
  refine answer_read_nextOrUninitRead hsrc fun words hw => memWrite_bind_pure_ok _ (hdst.mono ?_)
  exact (toRgb_length _ (Memory.readBytes_eq_some.1 hw).1).trans_le hc

theorem encIdat_nextOrUninitRead {s : State}
    (hr : RegionInRange s.cfg.memSize s.lat.ops.dstAddr s.zlen.toNat) :
    NextOrUninitRead (encIdat s) :=
  guarded_nextOrUninitRead fun _ => answer_read_nextOrUninitRead hr fun _ _ => ⟨_, rfl⟩

/-! A command that runs with nobody else to move. -/

/-- A running command with an empty queue: past the EXEC phase its operands have passed ENCPNG's checks
(R113), and at IDAT its payload lies in the destination (R117). -/
structure RunsInRange (s : State) : Prop where
  busy : s.busy = true
  script : s.script = []
  active : s.phase ≠ .idle
  operands : s.phase ≠ .exec → ImageOperandsOk s
  payload : s.phase = .idat → s.zlen.toNat ≤ s.lat.ops.dstCap.toNat

theorem execEncpng_nextOrUninitRead {s : State} (hs : RunsInRange s) (ft : BitVec 3) :
    NextOrUninitRead (execEncpng ft s) := by
  have operands {p : Phase} (hp : s.phase = p) (hne : p ≠ .exec) := hs.operands (hp ▸ hne)
  unfold execEncpng
  cases hp : s.phase with
  | idle => exact absurd hp hs.active
  | exec => exact guarded_nextOrUninitRead fun _ => .inr ⟨_, rfl⟩
  | compress => exact compress_nextOrUninitRead (operands hp nofun)
  | idat =>
    obtain ⟨-, -, -, hdst, -⟩ := operands hp nofun
    exact encIdat_nextOrUninitRead (hdst.mono (hs.payload hp))
  | _ => exact .inr ⟨_, rfl⟩

theorem exec_nextOrUninitRead {s : State} (hs : RunsInRange s) (i : Instr) :
    NextOrUninitRead (exec i s) := by
  cases i with
  | tblinit => exact .inr ⟨_, execTblinit_eq s⟩
  | crc => exact execCrc_nextOrUninitRead s
  | sopen => exact .inr ⟨_, execSopen_eq s⟩
  | sclose => exact .inr ⟨_, execSclose_eq s⟩
  | wsig => exact .inr ⟨_, execWsig_eq s⟩
  | wchunk => exact execWchunk_nextOrUninitRead s
  | filt ft => exact execFilt_nextOrUninitRead ft s
  | fcomp ft => exact execFcomp_nextOrUninitRead ft s
  | encpng ft => exact execEncpng_nextOrUninitRead hs ft
  | rgb => exact execRgb_nextOrUninitRead s

theorem RunsInRange.step_eq {s : State} (hs : RunsInRange s) : step s = engineStep s := by
  rw [step_of_engine hs.busy (by simp [hs.script]), takeTurn_of_empty hs.script]

theorem RunsInRange.step_nextOrUninitRead {s : State} (hs : RunsInRange s) :
    NextOrUninitRead (step s) := by
  rw [hs.step_eq, engineStep]
  split
  · exact exec_nextOrUninitRead hs _
  · exact .inr ⟨_, rfl⟩

/-! One step less to go. -/

theorem Phase.stepsLeft_pos {p : Phase} (h : p ≠ .idle) : 0 < p.stepsLeft := by
  cases p with
  | idle => exact absurd rfl h
  | _ => exact Nat.succ_pos _

theorem Phase.eq_compress_of_stepsLeft {p : Phase} (h : p.stepsLeft = 4) : p = .compress := by
  cases p with
  | compress => rfl
  | _ => cases h

/-- A command that runs on has gone to a phase of its own: IDLE is none (R33). -/
theorem exec_phase_ne_idle {i : Instr} {s t : State} (hb : t.busy = true)
    (h : exec i s = .next t) : t.phase ≠ .idle := by
  obtain ⟨u, -, he⟩ := exec_workThenEnd h
  cases he with
  | advanced p hp => exact hp
  | _ => cases hb

/-- A step of ENCPNG that leaves it running has operands that pass the checks, which EXEC makes
(R113). -/
theorem execEncpng_operandsOk {ft : BitVec 3} {s t : State} (hs : RunsInRange s)
    (hb : t.busy = true) (h : execEncpng ft s = .next t) : ImageOperandsOk s := by
  by_cases hp : s.phase = .exec
  · simp only [execEncpng, hp] at h
    obtain ⟨g, -, rfl⟩ | ⟨⟨-, ho, -⟩, -⟩ := encExec_eq_next.1 h
    · cases hb
    · exact ho
  · exact hs.operands hp

/-- Where COMPRESS leaves the command running, the payload fits the destination (R117). -/
theorem encCompress_zlen_le {s t : State} (hb : t.busy = true) (h : encCompress s = .ok t) :
    t.zlen.toNat ≤ t.lat.ops.dstCap.toNat := by
  obtain ⟨-, rgb, -, h⟩ := encCompress_eq_ok.1 h
  obtain ⟨-, info, rfl⟩ | ⟨z, -, hf, -, rfl⟩ := compressTo_next h
  · cases hb
  · calc (BitVec.ofNat 32 z.length).toNat ≤ z.length := by
          rw [BitVec.toNat_ofNat]
          exact Nat.mod_le ..
      _ ≤ s.lat.ops.dstCap.toNat := hf

/-- A step of ENCPNG that leaves it running keeps its later accesses in range. -/
theorem RunsInRange.encpng_advances {ft : BitVec 3} {s t : State} (hs : RunsInRange s)
    (hb : t.busy = true) (hsteps : s.phase.stepsLeft = t.phase.stepsLeft + 1)
    (h : exec (.encpng ft) s = .next t) : RunsInRange t := by
  obtain ⟨-, hl, -, hc, hscript, -⟩ := commandsWriteNoOperandRegister _ _ _ h
  have ho : ImageOperandsOk t := by
    simpa only [ImageOperandsOk, hl, hc] using execEncpng_operandsOk hs hb h
  refine ⟨hb, hscript.trans hs.script, exec_phase_ne_idle hb h, fun _ => ho, fun hp => ?_⟩
  rw [hp] at hsteps
  simp only [exec, execEncpng, Phase.eq_compress_of_stepsLeft hsteps] at h
  exact encCompress_zlen_le hb (answer_eq_next.1 h)

/-- A step of a running command ends it, or leaves it running with one step less to go. -/
theorem RunsInRange.ends_or_advances {s t : State} (hs : RunsInRange s) (h : step s = .next t) :
    (t.busy = false ∧ t.script = []) ∨
      (RunsInRange t ∧ s.phase.stepsLeft = t.phase.stepsLeft + 1) := by
  rw [hs.step_eq] at h
  obtain ⟨i, -, h⟩ | rfl := engineStep_next h
  · obtain ⟨-, -, -, -, hscript, -⟩ := commandsWriteNoOperandRegister _ _ _ h
    have hscript := hscript.trans hs.script
    by_cases hi : ∃ ft, i = .encpng ft
    · obtain ⟨ft, rfl⟩ := hi
      obtain ⟨-, rfl⟩ | ⟨p, ⟨hb, -⟩ | ⟨hb, rfl⟩, hsteps⟩ := execEncpng_closes_or_goesTo hs.busy h
      · exact .inl ⟨rfl, hscript⟩
      · exact .inl ⟨hb, hscript⟩
      · exact .inr ⟨hs.encpng_advances hb hsteps h, hsteps⟩
    · exact .inl ⟨(exec_not_busy (fun ft e => hi ⟨ft, e⟩) h).1, hscript⟩
  · exact .inl ⟨rfl, hs.script⟩

/-! The run. -/

theorem runSteps_succ_of_next {n : Nat} {s u : State} (h : step s = .next u) :
    runSteps (n + 1) s = runSteps n u := by
  have hstep : core.step s = .next u := h
  simp only [runSteps, Host.Core.run, hstep]
  rfl

theorem runSteps_succ_of_fault {n : Nat} {s : State} {f : Fault} (h : step s = .fault f) :
    runSteps (n + 1) s = .fault f := by
  have hstep : core.step s = .fault f := h
  simp only [runSteps, Host.Core.run, hstep]
  rfl

/-- As many steps as a command has to go, or more, end it or meet an unwritten byte. -/
theorem RunsInRange.ends {n : Nat} {s : State} (hs : RunsInRange s) (hn : s.phase.stepsLeft ≤ n) :
    runSteps n s = .fault .uninitRead ∨ ∃ t, runSteps n s = .next t ∧ t.busy = false := by
  induction n generalizing s with
  | zero => exact absurd hn (Nat.not_le.2 (Phase.stepsLeft_pos hs.active))
  | succ n ih =>
    obtain hfault | ⟨u, hu⟩ := hs.step_nextOrUninitRead
    · exact .inl (runSteps_succ_of_fault hfault)
    · rw [runSteps_succ_of_next hu]
      obtain ⟨hb, hscript⟩ | ⟨hu, hsteps⟩ := hs.ends_or_advances hu
      · exact .inr ⟨u, runSteps_of_idle hb hscript n, hb⟩
      · exact ih hu (by omega)

end Sys2Proof.Machine

/-! The statements about errors, completion and the length of a command, settled. -/

namespace Sys2Proof.Machine

/-- Settles O47: either end is the update R130 or R131 writes out. -/
theorem errorAndSuccessCompletion : Obligations.ErrorAndSuccessCompletion :=
  fun _ _ _ => ⟨rfl, rfl⟩

/-- Settles O55: the EXEC phase has eight steps to go, and each step stays in range, so that only an
unwritten byte can stop it. -/
theorem everyCommandEndsWithinEightSteps : Obligations.EveryCommandEndsWithinEightSteps := by
  intro s hb hp hscript
  have hs : RunsInRange s :=
    ⟨hb, hscript, hp ▸ nofun, fun h => absurd hp h, fun h => absurd (hp.symm.trans h) nofun⟩
  exact hs.ends s.phase.stepsLeft_le

end Sys2Proof.Machine

/-! The statement about RESET, settled. -/

namespace Sys2Proof.Machine

/-- RESET is the next step whatever the state holds: no check stands before it (R148). -/
theorem step_of_reset {s : State} {rest : List Turn} (h : s.script = .host .reset :: rest) :
    step s = .next (resetDevice { s with script := rest }) := by
  rw [step_of_host h, takeTurn_of_script h, hostStep]

/-- Settles O5: the latches, TBL and ZLEN are the ones the reset device holds, and every other field is
the one R40 or R149 names. -/
theorem resetClearsTheDeviceAndKeepsOutAndMem :
    Obligations.ResetClearsTheDeviceAndKeepsOutAndMem := by
  intro s rest h
  exact ⟨(resetDevice s).lat, (resetDevice s).tbl, (resetDevice s).zlen, step_of_reset h⟩

end Sys2Proof.Machine
